-- ==== Sys2Proof/Word.lean ====
section
/-! DEFINITION. Word.lean: the words, numbers and records in which the block's commands are written: what a
requester presents (R47), what the memory controller answers (R132, R10), the straps and pins (00_scope.md 3, 4.2). -/

namespace Sys2Proof

/-- One byte of data. -/
abbrev Byte := BitVec 8
/-- A byte address of the upstream and the downstream port (00_scope.md 4.1, R47, R132). -/
abbrev Addr := BitVec 34
/-- A power group, 0 to 15 (00_scope.md 4.2). -/
abbrev GroupNo := Fin 16
/-- A requester, 0 to 15. -/
abbrev ReqNo := Fin 16
/-- A region descriptor, 0 to 47. -/
abbrev RegionNo := Fin 48
/-- A match element, E0 to E23. -/
abbrev ElemNo := Fin 24
/-- A class, C0 to C7. -/
abbrev ClassNo := Fin 8
/-- A supply line, SUP0 to SUP7. -/
abbrev LineNo := Fin 8
/-- A wake line, WK0 to WK3. -/
abbrev WakeNo := Fin 4
/-- A credit slot of the downstream port, 0 to 31 (R134). -/
abbrev SlotNo := Fin 32
/-- A requester's name for a transaction (R47). -/
abbrev Tag := BitVec 8

/-- The kind of a transaction (R47, R132). -/
inductive Kind where
  | read
  | write
  deriving DecidableEq, Repr

/-- The level of a wake input, of a supply-control output and of a line's off level (R115, R127). -/
inductive Level where
  | low
  | high
  deriving DecidableEq, Repr

/-- The depth of a group (00_scope.md 4.3); a later constructor is deeper. -/
inductive Depth where
  | d0
  | nap
  | retain
  | off
  deriving DecidableEq, Repr

/-- A sleep depth: the depth of an ENTER, and of a target (R3, R10). -/
inductive Sleep where
  | nap
  | retain
  | off
  deriving DecidableEq, Repr

/-- The result a DONE message carries (R10). -/
inductive DoneResult where
  | ok
  | refused
  | error
  deriving DecidableEq, Repr

/-- The result of a downstream completion (R132). -/
inductive MemResult where
  | ok
  | error
  deriving DecidableEq, Repr

/-- A request record as a requester presents it (R47). The values are not checked here: a record whose fields break
a range is answered PROTOCOL (R54). An absent data part or enable part is the empty list. -/
structure Request where
  requester : ReqNo
  tag : Tag
  kind : Kind
  address : Addr
  length : Nat
  data : List Byte
  enables : List Bool
  deriving DecidableEq, Repr

/-- The straps as latched at a reset: GSZ, CGS, CRQ (00_scope.md 3, R1, R2, R68). -/
structure Straps where
  gsz : Fin 8
  cgs : GroupNo
  crq : ReqNo
  deriving DecidableEq, Repr

/-- What stands on the part's pins when RST_N is asserted: the straps it latches, the readiness level the memory
controller presents (R133) and the level of each wake input (R127). -/
structure ResetPins where
  straps : Straps
  ready : Bool
  wake : Vector Level 4
  deriving DecidableEq, Repr

/-- The bytes of one class term in a SET_CLASS slot, as software wrote them (12.3). -/
structure TermArg where
  enabled : Byte
  elementA : Byte
  hasB : Byte
  elementB : Byte
  bNegated : Byte
  deriving DecidableEq, Repr

/-- A command as a slot spells it: the kind and the argument bytes the kind's row of 12.3 lists, not yet checked.
`unknown` is a kind outside 0x01 to 0x12 (R194). -/
inductive CmdBody where
  | nop
  | setRegion (index policy readAllowed writeAllowed : Byte) (basePage pageCount fill : BitVec 32) (mask : BitVec 16)
  | clearRegion (index : Byte)
  | clearLost (index : Byte)
  | setGroupPolicy (group deepest : Byte) (tNap tRetain tOff : BitVec 32)
  | forceDepth (group depth : Byte)
  | wakeGroups (mask : BitVec 16)
  | recoverGroup (group : Byte)
  | setLine (line threshold offLevel : Byte) (deps settle : BitVec 16)
  | forceLine (line action : Byte)
  | setWakeLine (line mode count : Byte) (groups : BitVec 16)
  | setElement (index enabled kindTest anyPage : Byte) (lowPage highPage : BitVec 32) (hasData : Byte)
      (pattern mask : Vector Byte 8) (requesters : BitVec 16)
  | setClass (cls activity wake trap : Byte) (prewake : BitVec 16) (term0 term1 term2 term3 : TermArg)
  | setRequester (requester enabled mode quota control : Byte)
  | releaseTrap (requester disposition : Byte)
  | setQueueLimits (high low : Byte)
  | setTimeouts (entry nap retain off : BitVec 16)
  | snapshot (clear : Byte)
  | unknown (kind : Byte)
  deriving DecidableEq, Repr

end Sys2Proof
end

