-- ==== Sys2Proof/Syntax.lean ====
section
/-! DEFINITION. Syntax.lean: the commands of the block, one constructor for each row of spec/opcode_table.json. The
first nineteen are events at the part's ports and timers; the last eighteen are the commands of the command ring,
each taken at the event at which the memory controller completes the command processor's outstanding fetch with the
slot that spells it (R155, R163). -/

namespace Sys2Proof

/-- The commands. `slotTag` is bytes 0 and 1 of a command slot; the other operands of a ring command are the bytes of
its arguments as 12.3 lays them out, so that a value out of range can be written and is refused by the part (R165). -/
inductive Instr where
  /-- COLD_RESET: RST_N asserted at power-up. -/
  | coldReset (pins : ResetPins)
  /-- WARM_RESET: RST_N asserted at any later time. -/
  | warmReset (pins : ResetPins)
  /-- ADMISSION: requesters present the listed requests in their lanes, and the port accepts one request (R52). -/
  | admission (presented : List Request)
  /-- RESPONSE_TAKEN: the interconnect takes the oldest response (R65). -/
  | responseTaken
  /-- TAKE_READY: the memory controller signals readiness (R133). -/
  | takeReady
  /-- COMPLETION: a completion record arrives from the memory controller (R132, R139). -/
  | completion (slot : SlotNo) (generation : BitVec 8) (result : MemResult) (readData : Option (List Byte))
  /-- DONE: a DONE message names a group (R10). -/
  | done (group : GroupNo) (result : DoneResult)
  /-- ENTRY_TIMEOUT: the transition timer of a group expires on its ENTER (R15). -/
  | entryTimeout (group : GroupNo)
  /-- EXIT_TIMEOUT: the transition timer of a group expires on its EXIT (R19). -/
  | exitTimeout (group : GroupNo)
  /-- START_SETTLE_EXPIRY: the start settle of a warm reset ends for a group (R28). -/
  | startSettleExpiry (group : GroupNo)
  /-- TU_TICK: one TU of part time passes (R6, R184). -/
  | tuTick
  /-- SETTLE_EXPIRY: the settle timer of a supply line expires (R119). -/
  | settleExpiry (line : LineNo)
  /-- WAKE_INPUT_TRANSITION: a wake input takes a new level (R128). -/
  | wakeInputTransition (line : WakeNo) (level : Level)
  /-- WAKE_LINE_SAMPLE: a wake input in mode SAMPLED is sampled (R129). -/
  | wakeLineSample (line : WakeNo)
  /-- CMD_PRODUCER: a requester writes the enabled bytes of CMD_PRODUCER (R147). -/
  | cmdProducer (requester : ReqNo) (tag : Tag) (value : BitVec 16) (enables : BitVec 2)
  /-- REPORT_CONSUMER: a requester writes the enabled bytes of REPORT_CONSUMER (R147). -/
  | reportConsumer (requester : ReqNo) (tag : Tag) (value : BitVec 16) (enables : BitVec 2)
  /-- IRQ_ENABLE: a requester writes the enabled bytes of IRQ_ENABLE (R147). -/
  | irqEnable (requester : ReqNo) (tag : Tag) (value : BitVec 32) (enables : BitVec 4)
  /-- RESTART_REQUEST: a requester writes the enabled bytes of RESTART_REQUEST (R147). -/
  | restartRequest (requester : ReqNo) (tag : Tag) (value : BitVec 32) (enables : BitVec 4)
  /-- CONTROL_BLOCK_WRITE: a requester writes the control block at a byte offset from its start (R56). -/
  | controlBlockWrite (requester : ReqNo) (tag : Tag) (offset : BitVec 13) (length : Nat) (data : List Byte)
      (enables : List Bool)
  /-- NOP (R165). -/
  | nop (slotTag : BitVec 16)
  /-- SET_REGION (R166, R167). -/
  | setRegion (slotTag : BitVec 16) (index policy readAllowed writeAllowed : Byte)
      (basePage pageCount fill : BitVec 32) (mask : BitVec 16)
  /-- CLEAR_REGION (R168). -/
  | clearRegion (slotTag : BitVec 16) (index : Byte)
  /-- CLEAR_LOST (R168). -/
  | clearLost (slotTag : BitVec 16) (index : Byte)
  /-- SET_GROUP_POLICY (R169). -/
  | setGroupPolicy (slotTag : BitVec 16) (group deepest : Byte) (tNap tRetain tOff : BitVec 32)
  /-- FORCE_DEPTH (R170). -/
  | forceDepth (slotTag : BitVec 16) (group depth : Byte)
  /-- WAKE_GROUPS (R171). -/
  | wakeGroups (slotTag : BitVec 16) (mask : BitVec 16)
  /-- RECOVER_GROUP (R172). -/
  | recoverGroup (slotTag : BitVec 16) (group : Byte)
  /-- SET_LINE (R174). -/
  | setLine (slotTag : BitVec 16) (line threshold offLevel : Byte) (deps settle : BitVec 16)
  /-- FORCE_LINE (R174). -/
  | forceLine (slotTag : BitVec 16) (line action : Byte)
  /-- SET_WAKE_LINE (R175). -/
  | setWakeLine (slotTag : BitVec 16) (line mode count : Byte) (groups : BitVec 16)
  /-- SET_ELEMENT (R176). -/
  | setElement (slotTag : BitVec 16) (index enabled kindTest anyPage : Byte) (lowPage highPage : BitVec 32)
      (hasData : Byte) (pattern mask : Vector Byte 8) (requesters : BitVec 16)
  /-- SET_CLASS (R177). -/
  | setClass (slotTag : BitVec 16) (cls activity wake trap : Byte) (prewake : BitVec 16)
      (term0 term1 term2 term3 : TermArg)
  /-- SET_REQUESTER (R178). -/
  | setRequester (slotTag : BitVec 16) (requester enabled mode quota control : Byte)
  /-- RELEASE_TRAP (R179). -/
  | releaseTrap (slotTag : BitVec 16) (requester disposition : Byte)
  /-- SET_QUEUE_LIMITS (R180). -/
  | setQueueLimits (slotTag : BitVec 16) (high low : Byte)
  /-- SET_TIMEOUTS (R180). -/
  | setTimeouts (slotTag : BitVec 16) (entry nap retain off : BitVec 16)
  /-- SNAPSHOT (R181). -/
  | snapshot (slotTag : BitVec 16) (clear : Byte)
  deriving DecidableEq, Repr

end Sys2Proof
end

