-- ==== Sys2Proof/Decode.lean ====
section
/-! DEFINITION. Decode.lean: the commands that a word spells by the bits of spec/opcode_table.json. No row of the table
gives bits, so no word spells a command. -/

namespace Sys2Proof

/-- The command that the low `nbits` bits of `w` spell by the table's bits: none. -/
def decodeTableWord (_nbits _w : Nat) : Option Instr := none

end Sys2Proof
end

