-- ==== Sys2Proof/Config.lean ====
section
/-! DEFINITION. Config.lean: what is fixed for the machine and not state: the sizes and fixed times the manual states,
the values the model itself names for reset, and the one free value (log entry 1). -/

namespace Sys2Proof.Config

/-- FREE VALUE (log entry 1). The data byte that one of the command processor's own writes carries in a byte whose enable
is 0: R193 and R158 give the enables of those bytes and no data. The first argument is the count of such writes built
so far, the second the byte's place in the write. -/
opaque disabledByte : Nat → Nat → BitVec 8

/-- Places of the tracking table, and how many of them memory-lane traffic may use (R50, R60). -/
def trackingPlaces : Nat := 128
def memoryTrackingPlaces : Nat := 124
/-- Places of the forward queue (R135). -/
def forwardPlaces : Nat := 16
/-- Slots of the command ring and of the report ring (R145). -/
def commandSlots : Nat := 32
def reportSlots : Nat := 64
/-- Report slots kept back from notices (R186). -/
def reservedSlots : Nat := 4
/-- The start settle of a warm reset, in TU (R28). -/
def startSettle : Nat := 4096
/-- Where idle elapsed stops (R5). -/
def idleLimit : Nat := 16777215
/-- The wake-line sampling period, in TU (R129). -/
def samplePeriod : Nat := 64
/-- The part code and the revision in the header (12.2). -/
def partCode : BitVec 16 := 0x0A16#16
def revision : BitVec 16 := 1#16

/-- How many claims one event may pass between the hold queue and the group controllers. The queue has 64 places and
an entry leaves it once, so no event of a state the part reaches comes near it (log entry 14). -/
def claimFuel : Nat := 4096

/-- DESIGN CHOICE (log entry 2): the pins at the power-up reset that `State.reset` stands for; the manual fixes no
strap, no readiness level and no wake-input level. -/
def powerUpPins : ResetPins :=
  { straps := { gsz := 0, cgs := 0, crq := 0 }, ready := false, wake := Vector.replicate 4 .low }

end Sys2Proof.Config
end

