-- ==== Sys2Proof/Machine/Blocks.lean ====
section
/-! DEFINITION. Machine/Blocks.lean: the records each block keeps, with the field tables of the chapters, and each
record's value after a cold reset. -/

namespace Sys2Proof.Machine

/-! ## Group controllers (chapter 1) -/

/-- The state of a group (R3). -/
inductive GroupState where
  | active
  | draining
  | entering
  | asleep
  | waking
  | scrubbing
  | faulted
  deriving DecidableEq, Repr

/-- The stage of a wake (R3, R17). -/
inductive WakeSub where
  | lines
  | exiting
  deriving DecidableEq, Repr

/-- The content outcome of a wake (R18). -/
inductive Content where
  | kept
  | lost
  | filled
  | lostFilled
  deriving DecidableEq, Repr

/-- Why a group is FAULTED (R22). -/
inductive FaultReason where
  | entryError
  | entryTimeout
  | exitFailed
  | scrubFailed
  deriving DecidableEq, Repr

/-- The six counters of a group (R27). -/
structure GroupCounters where
  toNap : BitVec 32 := 0
  toRetain : BitVec 32 := 0
  toOff : BitVec 32 := 0
  wakes : BitVec 32 := 0
  faults : BitVec 32 := 0
  strays : BitVec 32 := 0
  deriving DecidableEq, Repr

/-- The group record (R3); a field's default is its value after a cold reset. `timer` is `none` when stopped; `some 0`
is a timer that has run out and whose expiry has not been taken yet (log entry 7). -/
structure GroupRec where
  state : GroupState := .active
  depth : Depth := .d0
  target : Option Sleep := none
  deepest : Depth := .d0
  tNap : Nat := 0
  tRetain : Nat := 0
  tOff : Nat := 0
  idle : Nat := 0
  inFlight : Nat := 0
  held : Nat := 0
  forced : Bool := false
  wakePending : Bool := false
  retryUsed : Bool := false
  coldExit : Bool := false
  wakeSub : Option WakeSub := none
  timer : Option Nat := none
  cause : Option (BitVec 16) := none
  content : Option Content := none
  faultReason : Option FaultReason := none
  counters : GroupCounters := {}
  deriving DecidableEq, Repr

/-- The timeout set, which all group controllers read (R12, R17, R180). -/
structure Timeouts where
  entry : Nat := 128
  exitNap : Nat := 8
  exitRetain : Nat := 64
  exitOff : Nat := 1024
  deriving DecidableEq, Repr

/-! ## Region table and scrub engine (chapter 2) -/

/-- The content policy of a region (R35 to R37). -/
inductive Policy where
  | keep
  | loseOk
  | loseFill
  deriving DecidableEq, Repr

/-- A region descriptor (R30). -/
structure Region where
  valid : Bool := false
  basePage : Nat := 0
  pageCount : Nat := 1
  policy : Policy := .keep
  fill : Option (BitVec 32) := none
  mask : BitVec 16 := 0
  readAllowed : Bool := false
  writeAllowed : Bool := false
  lost : Bool := false
  deriving DecidableEq, Repr

/-- The state of the scrub engine (R42). -/
inductive EngineState where
  | idle
  | offered
  | outstanding
  deriving DecidableEq, Repr

/-- The scrub queue and the scrub engine (R41, R42). -/
structure Scrub where
  queue : List GroupNo := []
  engine : EngineState := .idle
  cursorGroup : Option GroupNo := none
  cursorRegion : Option RegionNo := none
  cursorAddr : Option Addr := none
  deriving DecidableEq, Repr

/-! ## Upstream port and admission unit (chapter 3) -/

/-- The upstream port: the one place of each lane of each requester, and the requester at which the next acceptance
starts its rotation (R49, R52). -/
structure UpPort where
  control : Vector (Option Request) 16 := Vector.replicate 16 none
  memory : Vector (Option Request) 16 := Vector.replicate 16 none
  next : ReqNo := 0
  deriving DecidableEq, Repr

/-- What names a tracking entry: no two entries share requester and tag (R60; log entry 16). -/
structure TrackRef where
  requester : ReqNo
  tag : Tag
  deriving DecidableEq, Repr

/-- A transaction as it goes downstream (R132). An absent data part is the empty list. -/
structure Tx where
  kind : Kind
  address : Addr
  length : Nat
  data : List Byte
  enables : List Bool
  deriving DecidableEq, Repr

/-- The statuses of a response (R48). -/
inductive Status where
  | done
  | denied
  | asleep
  | lost
  | failed
  | protocol
  deriving DecidableEq, Repr

/-- The states of a tracking entry (R62). -/
inductive TrackState where
  | held
  | queued
  | inFlight
  | answering
  deriving DecidableEq, Repr

/-- A tracking entry (R60). The whole transaction stands in it, since the downstream port sends the data and byte
enables "of its tracking entry" (R132). -/
structure TrackEntry where
  ref : TrackRef
  seq : BitVec 32
  tx : Tx
  group : Option GroupNo
  control : Bool
  cls : Option ClassNo
  state : TrackState
  status : Option Status
  readData : Option (List Byte)
  deriving DecidableEq, Repr

/-- An element of the response list: the response of an ANSWERING entry, or the one in the protocol answer place (R65). -/
inductive RespRef where
  | tracked (ref : TrackRef)
  | protocol
  deriving DecidableEq, Repr

/-- The admission unit (R54, R60, R61, R65, R66). -/
structure AdmissionUnit where
  tracking : List TrackEntry := []
  nextSeq : BitVec 32 := 0
  responses : List RespRef := []
  protocolPlace : Option TrackRef := none
  controlAdmitted : BitVec 32 := 0
  controlDenied : BitVec 32 := 0
  deriving DecidableEq, Repr

/-! ## Requester table and hold queue (chapters 4 and 6) -/

/-- The ordering mode of a requester (R68). -/
inductive Mode where
  | ordered
  | relaxed
  deriving DecidableEq, Repr

/-- A requester record (R68), with the trap state of R105 and the admission unit's two counters of R66. -/
structure Requester where
  enabled : Bool := true
  mode : Mode := .ordered
  quota : Nat := 16
  control : Bool := false
  halted : Bool := false
  outstanding : Nat := 0
  held : Nat := 0
  trapped : Option TrackRef := none
  trapCount : BitVec 32 := 0
  admitted : BitVec 32 := 0
  denied : BitVec 32 := 0
  deriving DecidableEq, Repr

/-- The state of a hold entry (R71). -/
inductive HoldState where
  | waiting
  | ready
  deriving DecidableEq, Repr

/-- Why an entry is held (R72). -/
inductive HoldReason where
  | wake
  | order
  | trap
  | halt
  deriving DecidableEq, Repr

/-- A hold entry (R71). Its requester is that of its tracking reference. -/
structure HoldEntry where
  ref : TrackRef
  seq : BitVec 32
  group : GroupNo
  cls : ClassNo
  tx : Tx
  state : HoldState
  reason : HoldReason
  deriving DecidableEq, Repr

def HoldEntry.requester (e : HoldEntry) : ReqNo := e.ref.requester

/-- The hold queue, oldest entry first, its watermarks, backpressure flag and peak (R71, R82, R85). -/
structure HoldQueue where
  entries : List HoldEntry := []
  high : Nat := 56
  low : Nat := 40
  backpressure : Bool := false
  peak : Nat := 0
  deriving DecidableEq, Repr

/-! ## Activity classifier (chapter 5) -/

/-- The kinds an element may match (R88). -/
inductive KindTest where
  | read
  | write
  | any
  deriving DecidableEq, Repr

/-- A match element (R88). `window` is `none` for ANY, else the low and the high page. -/
structure Element where
  enabled : Bool := false
  mask : BitVec 16 := 0
  kindTest : KindTest := .any
  window : Option (Nat × Nat) := none
  dataTest : Option (Vector Byte 8 × Vector Byte 8) := none
  deriving DecidableEq, Repr

/-- A term of a class (R91). `bNegated` has a meaning only where `b` is present (log entry 30). -/
structure Term where
  enabled : Bool := false
  a : ElemNo := 0
  b : Option ElemNo := none
  bNegated : Bool := false
  deriving DecidableEq, Repr

/-- A class record (R91). -/
structure ClassRec where
  activity : Bool := true
  wake : Bool := true
  trap : Bool := false
  prewake : BitVec 16 := 0
  terms : Vector Term 4 := Vector.replicate 4 {}
  deriving DecidableEq, Repr

/-- The seven counters of a class (R100). -/
structure ClassCounters where
  admitted : BitVec 32 := 0
  forwarded : BitVec 32 := 0
  held : BitVec 32 := 0
  refused : BitVec 32 := 0
  wakesCaused : BitVec 32 := 0
  readBytes : BitVec 32 := 0
  writeBytes : BitVec 32 := 0
  deriving DecidableEq, Repr

/-- The classifier's programme (R88, R91). -/
structure Programme where
  elements : Vector Element 24 := Vector.replicate 24 {}
  classes : Vector ClassRec 8 := Vector.replicate 8 {}
  deriving DecidableEq, Repr

/-! ## Supply lines and wake lines (chapter 7) -/

/-- The threshold of a supply line (R115). -/
inductive Threshold where
  | retain
  | off
  deriving DecidableEq, Repr

/-- The state of a supply line (R115). -/
inductive LineState where
  | on
  | settling
  | off
  deriving DecidableEq, Repr

/-- A supply-line record (R115). `timer` as in `GroupRec`. -/
structure SupplyLine where
  deps : BitVec 16 := 0
  threshold : Threshold := .off
  offLevel : Level := .low
  settle : Nat := 64
  forced : Bool := false
  state : LineState := .on
  timer : Option Nat := none
  deriving DecidableEq, Repr

/-- The supply line unit: the lines, the sleep view of each group (`none` is "not asleep") and the waiting set (R115,
R116, R120). -/
structure SupplyUnit where
  lines : Vector SupplyLine 8 := Vector.replicate 8 {}
  view : Vector (Option Sleep) 16 := Vector.replicate 16 none
  waiting : Vector Bool 16 := Vector.replicate 16 false
  deriving DecidableEq, Repr

/-- The mode of a wake line (R127). -/
inductive WakeMode where
  | off
  | rise
  | fall
  | both
  | sampled
  deriving DecidableEq, Repr

/-- A wake-line record (R127). `sampleDue` is the model's own: the sample point of the present TU is still to be taken
for this line (log entry 8). -/
structure WakeLine where
  mode : WakeMode := .off
  count : Nat := 1
  groups : BitVec 16 := 0
  armed : Bool := true
  lastLevel : Level
  highRun : Nat := 0
  lowRun : Nat := 0
  sampleDue : Bool := false
  deriving DecidableEq, Repr

/-! ## Downstream port (chapter 8) -/

/-- Whose transaction a credit slot carries; a forwarded one with its tracking reference and group (R134). -/
inductive SlotSource where
  | forward (ref : TrackRef) (group : Option GroupNo)
  | cpWrite
  | cpFetch
  | scrub
  deriving DecidableEq, Repr

/-- The fields of a credit slot in use (R134). -/
structure Slot where
  source : SlotSource
  kind : Kind
  length : Nat
  deriving DecidableEq, Repr

/-- The arbiter's turn (R137). -/
inductive Turn where
  | forward
  | internal
  deriving DecidableEq, Repr

/-- The downstream port (R133 to R137). A slot that is `none` is free. -/
structure DownPort where
  takeReady : Bool
  slots : Vector (Option Slot) 32 := Vector.replicate 32 none
  generation : BitVec 8 := 0
  forward : List TrackRef := []
  writePlace : Option Tx := none
  fetchPlace : Option Tx := none
  scrubPlace : Option Tx := none
  turn : Turn := .internal
  deriving DecidableEq, Repr

/-! ## Command processor (chapters 9 to 11) -/

/-- The states of the command processor (R146). -/
inductive CpState where
  | idle
  | fetching
  | executing
  | posting
  | waitSpace
  | errorStop
  deriving DecidableEq, Repr

/-- A producer mark (R148). -/
structure Mark where
  value : BitVec 16
  requester : ReqNo
  seq : BitVec 32
  deriving DecidableEq, Repr

/-- The result codes of a command (R164). -/
inductive Result where
  | ok
  | accepted
  | badKind
  | badArgument
  | conflict
  | groupBusy
  | groupPinned
  | contentKept
  | notHalted
  | lineBusy
  | noControlLeft
  deriving DecidableEq, Repr

/-- A notice with the fields its code carries (R185). -/
inductive Notice where
  | groupAsleep (group : GroupNo) (depth : Depth) (cause : Option (BitVec 16))
  | entryRefused (group : GroupNo) (depth : Depth) (cause : Option (BitVec 16))
  | groupActive (group : GroupNo) (content : Option Content) (cause : Option (BitVec 16))
  | wakeRetry (group : GroupNo) (depth : Depth) (cause : Option (BitVec 16))
  | groupFault (group : GroupNo) (depth : Depth) (reason : FaultReason) (cause : Option (BitVec 16))
  | trapHit (requester : ReqNo) (group : GroupNo) (tag : Tag) (kind : Kind) (cls : ClassNo) (address : Addr)
      (cause : Option (BitVec 16))
  | queueHigh (occupancy watermark : Nat)
  | queueNormal (occupancy watermark : Nat)
  | lineState (line : LineNo) (state : LineState) (output : Level)
  | wakeLine (line : WakeNo) (groups : BitVec 16)
  | ringProtocol (reportConsumer : Bool) (value : BitVec 16)
  | restartDone (dropped epoch : BitVec 16)
  | overflow (codes : BitVec 32) (total : Nat)
  deriving DecidableEq, Repr

/-- A completion report (R155, R183). -/
structure CompletionReport where
  kind : Byte
  slotTag : BitVec 16
  seq : BitVec 16
  issuer : ReqNo
  result : Result
  detail : BitVec 32
  time : BitVec 32
  deriving DecidableEq, Repr

/-- A report record: a completion, or a notice stamped with part time (R183, R184). -/
inductive Report where
  | completion (c : CompletionReport)
  | notice (n : Notice) (time : BitVec 32)
  deriving DecidableEq, Repr

/-- What a write of the write list is (R150). `publish v c`: a REPORT_PRODUCER write of value `v`, `c` when it publishes
the completion of the command in hand. `restart i v`: write `i` of a restart rewrite that carries REPORT_PRODUCER `v`.
`payload l`: a payload write, `l` when it is the last of the SNAPSHOT in hand. -/
inductive WriteKind where
  | initial (index : Fin 4)
  | restart (index : Fin 4) (reportProducer : BitVec 16)
  | record
  | publish (value : BitVec 16) (ofCompletion : Bool)
  | cmdConsumer
  | mirror
  | payload (last : Bool)
  deriving DecidableEq, Repr

/-- A write of the write list; a mirror write is built only when it is set in the place (R150, R152). -/
structure CpWrite where
  kind : WriteKind
  tx : Option Tx
  deriving DecidableEq, Repr

/-- The command in hand (R146): its sequence and issuer; the slot tag, kind and arguments once fetched; the completion
built for it; and, for a SNAPSHOT, the part time of its copy. -/
structure InHand where
  seq : BitVec 16
  issuer : ReqNo
  fetched : Option (BitVec 16 × CmdBody) := none
  completion : Option CompletionReport := none
  copyTime : Option (BitVec 32) := none
  deriving DecidableEq, Repr

/-- The command processor (R146, R187). `orphan`: a CP write downstream that left the write list at an entry to
ERROR_STOP (R159). `writeList` has no bound of its own: the model's choice (R150; log entry 29). -/
structure CmdProc where
  state : CpState := .idle
  producerShadow : BitVec 16 := 0
  consumerShadow : BitVec 16 := 0
  irqEnable : BitVec 32 := 0
  restartShadow : BitVec 32 := 0
  cmdConsumer : BitVec 16 := 0
  reportProducer : BitVec 16 := 0
  published : BitVec 16 := 0
  epoch : BitVec 16 := 0
  headerDone : Bool := false
  outstanding : List (BitVec 32) := []
  marks : List Mark := []
  inHand : Option InHand := none
  writeList : List CpWrite := []
  reMirror : Bool := false
  fetchStale : Bool := false
  orphan : Bool := false
  lostSet : BitVec 32 := 0
  lostTotal : Nat := 0
  deriving DecidableEq, Repr

/-! ## Ports -/

/-- What the part puts on its ports at an event: a response the interconnect takes (R48), a transaction sent downstream
with its tag (R132), an ENTER or an EXIT on the group power channel (R10). -/
inductive Output where
  | response (requester : ReqNo) (tag : Tag) (status : Status) (readData : Option (List Byte))
  | send (slot : SlotNo) (generation : BitVec 8) (tx : Tx)
  | enter (group : GroupNo) (depth : Sleep)
  | exit (group : GroupNo) (cold : Bool)
  deriving DecidableEq, Repr

/-- The eight supply lines, the sixteen groups, the sixteen requesters, the 48 regions, in ascending number. -/
def allLines : List LineNo := [0, 1, 2, 3, 4, 5, 6, 7]
def allGroups : List GroupNo := [0, 1, 2, 3, 4, 5, 6, 7, 8, 9, 10, 11, 12, 13, 14, 15]
def allRequesters : List ReqNo := [0, 1, 2, 3, 4, 5, 6, 7, 8, 9, 10, 11, 12, 13, 14, 15]
def allClasses : List ClassNo := [0, 1, 2, 3, 4, 5, 6, 7]
def allRegions : List RegionNo := List.finRange 48
def allSlots : List SlotNo := List.finRange 32

end Sys2Proof.Machine
end

