-- ==== Sys2Proof/Machine/Operands.lean ====
section
/-! DEFINITION. Machine/Operands.lean: what the operands of the commands say: the groups and pages of an address (R1), the
place of the control block (R145), the lane of a request (R49), and the value sets of the ring commands' arguments
(chapter 10, 12.3). -/

namespace Sys2Proof.Machine

/-! ## Addresses, pages and groups -/

/-- Pages in a group, by strap GSZ (R1): codes 5, 6 and 7 act as code 4. -/
def pagesPerGroup (p : Straps) : Nat := 16384 * 2 ^ min p.gsz.val 4

/-- Bytes in a group (R1). -/
def groupBytes (p : Straps) : Nat := pagesPerGroup p * 4096

/-- Pages of installed memory: sixteen times the group size (R1). -/
def installedPages (p : Straps) : Nat := 16 * pagesPerGroup p

/-- The page number of an address (00_scope.md 4.1). -/
def pageOf (a : Addr) : Nat := a.toNat / 4096

/-- The group of a page; none at or beyond installed memory (R1). -/
def groupOfPage (p : Straps) (page : Nat) : Option GroupNo :=
  if h : page / pagesPerGroup p < 16 then some ⟨page / pagesPerGroup p, h⟩ else none

/-- The first page of the control block, which is the first page of the control group (R145). -/
def controlPage (p : Straps) : Nat := p.cgs.val * pagesPerGroup p

/-- The page is one of the control block's two pages (R31, R49). -/
def isControlPage (p : Straps) (page : Nat) : Bool := page == controlPage p || page == controlPage p + 1

/-- The byte address of an offset in the control block (R145). -/
def controlAddr (p : Straps) (offset : Nat) : Addr := BitVec.ofNat 34 (p.cgs.val * groupBytes p + offset)

/-- The offset of an address of the control block. -/
def controlOffset (p : Straps) (a : Addr) : Nat := a.toNat - p.cgs.val * groupBytes p

/-! ## Requests -/

end Sys2Proof.Machine

namespace Sys2Proof

/-- The address of the request selects the control lane (R49). -/
def Request.isControl (p : Straps) (r : Request) : Bool := Machine.isControlPage p (Machine.pageOf r.address)

/-- The reference a request's tracking entry has. -/
def Request.ref (r : Request) : Machine.TrackRef := ⟨r.requester, r.tag⟩

/-- The transaction a request asks for. -/
def Request.tx (r : Request) : Machine.Tx := ⟨r.kind, r.address, r.length, r.data, r.enables⟩

/-- The data part of a request is well formed (R54, fourth point). -/
def Request.dataOk (r : Request) : Bool :=
  match r.kind with
  | .read => r.data.isEmpty && r.enables.isEmpty
  | .write => r.data.length == r.length * 16 && r.enables.length == r.length * 16

/-- The protocol checks that look at the record alone (R54, all points but the duplicate test). -/
def Request.formOk (r : Request) : Bool :=
  r.address.toNat % 16 == 0 && decide (1 ≤ r.length) && decide (r.length ≤ 16)
    && decide (r.address.toNat % 4096 + 16 * r.length ≤ 4096) && r.dataOk

def Sleep.toDepth : Sleep → Depth
  | .nap => .nap
  | .retain => .retain
  | .off => .off

/-- The number of a depth; a greater number is deeper (00_scope.md 4.3). -/
def Depth.num : Depth → Nat
  | .d0 => 0
  | .nap => 1
  | .retain => 2
  | .off => 3

def Level.other : Level → Level
  | .low => .high
  | .high => .low

end Sys2Proof

namespace Sys2Proof.Machine

/-- An offset of the control block that lies in a software-owned part (R56, 12.2). -/
def softwareOwned (offset : Nat) : Bool :=
  offset ≤ 1 || (4 ≤ offset && offset ≤ 5) || (8 ≤ offset && offset ≤ 15) || (0x400 ≤ offset && offset ≤ 0xBFF)

/-- The offsets and values of a control-block write's enabled bytes (R57): the bytes of `data` whose enable is 1, the
first standing at `offset`. -/
def enabledBytes (offset : Nat) : List Byte → List Bool → List (Nat × Byte)
  | d :: ds, e :: es => if e then (offset, d) :: enabledBytes (offset + 1) ds es else enabledBytes (offset + 1) ds es
  | _, _ => []

/-- The number of byte enables that are 1 (R101). -/
def Tx.enabledCount (t : Tx) : Nat := (t.enables.filter id).length

/-! ## A written word and its shadow (R147) -/

/-- A 16-bit word at `offset`: the enabled bytes from the write, the other bytes from the shadow. -/
def mergeWord16 (bytes : List (Nat × Byte)) (offset : Nat) (shadow : BitVec 16) : BitVec 16 :=
  let pick := fun k old => match bytes.find? (fun b => b.1 == offset + k) with | some b => b.2 | none => old
  pick 1 (shadow.extractLsb' 8 8) ++ pick 0 (shadow.extractLsb' 0 8)

/-- A 32-bit word at `offset`, merged in the same way. -/
def mergeWord32 (bytes : List (Nat × Byte)) (offset : Nat) (shadow : BitVec 32) : BitVec 32 :=
  mergeWord16 bytes (offset + 2) (shadow.extractLsb' 16 16) ++ mergeWord16 bytes offset (shadow.extractLsb' 0 16)

/-- The write enables at least one byte of the `size` bytes at `offset`. -/
def touches (bytes : List (Nat × Byte)) (offset size : Nat) : Bool :=
  bytes.any (fun b => decide (offset ≤ b.1) && decide (b.1 < offset + size))

/-! ## The header words a requester writes (12.2) -/

/-- One beat at the start of the control block that writes `value`'s bytes at `offset` where the enable is 1; every
other byte of the beat has its enable 0 (log entry 5). -/
def wordWrite (p : Straps) (q : ReqNo) (tag : Tag) (offset size : Nat) (value enables : BitVec 32) : Request :=
  { requester := q, tag := tag, kind := .write, address := controlAddr p 0, length := 1
    data := (List.range 16).map fun i =>
      if offset ≤ i ∧ i < offset + size then value.extractLsb' (8 * (i - offset)) 8 else 0
    enables := (List.range 16).map fun i => decide (offset ≤ i ∧ i < offset + size) && enables.getLsbD (i - offset) }

/-! ## Arguments of the ring commands (chapter 10, 12.3) -/

/-- A flag byte: 0 or 1, and nothing else (R192, R194). -/
def flag? (b : Byte) : Option Bool := if b = 0 then some false else if b = 1 then some true else none

def index? (n : Nat) (b : Byte) : Option (Fin n) := if h : b.toNat < n then some ⟨b.toNat, h⟩ else none

def depth? (b : Byte) : Option Depth :=
  if b = 0 then some .d0 else if b = 1 then some .nap else if b = 2 then some .retain else if b = 3 then some .off
  else none

def sleep? (b : Byte) : Option Sleep :=
  if b = 1 then some .nap else if b = 2 then some .retain else if b = 3 then some .off else none

def policy? (b : Byte) : Option Policy :=
  if b = 0 then some .keep else if b = 1 then some .loseOk else if b = 2 then some .loseFill else none

def threshold? (b : Byte) : Option Threshold := if b = 2 then some .retain else if b = 3 then some .off else none

def level? (b : Byte) : Option Level := if b = 0 then some .low else if b = 1 then some .high else none

def wakeMode? (b : Byte) : Option WakeMode :=
  if b = 0 then some .off else if b = 1 then some .rise else if b = 2 then some .fall else if b = 3 then some .both
  else if b = 4 then some .sampled else none

def kindTest? (b : Byte) : Option KindTest :=
  if b = 0 then some .read else if b = 1 then some .write else if b = 2 then some .any else none

def mode? (b : Byte) : Option Mode := if b = 0 then some .ordered else if b = 1 then some .relaxed else none

/-- A number argument between two bounds. -/
def within (lo hi : Nat) (n : Nat) : Option Nat := if lo ≤ n ∧ n ≤ hi then some n else none

/-- The nonzero thresholds are nondecreasing in the order T_NAP, T_RETAIN, T_OFF (R169). -/
def thresholdsOrdered (tNap tRetain tOff : Nat) : Bool :=
  (tNap == 0 || tRetain == 0 || decide (tNap ≤ tRetain))
    && (tRetain == 0 || tOff == 0 || decide (tRetain ≤ tOff))
    && (tNap == 0 || tOff == 0 || decide (tNap ≤ tOff))

/-- A term argument: element b and b negated are read only when element b is present (R177, R194). That b negated is kept
as 0 where element b is absent is the model's choice (log entry 30). -/
def term? (t : TermArg) : Option Term :=
  match flag? t.enabled, index? 24 t.elementA, flag? t.hasB with
  | some en, some a, some false => some { enabled := en, a := a, b := none, bNegated := false }
  | some en, some a, some true =>
    match index? 24 t.elementB, flag? t.bNegated with
    | some b, some neg => some { enabled := en, a := a, b := some b, bNegated := neg }
    | _, _ => none
  | _, _, _ => none

/-- The window argument of SET_ELEMENT: the pages are not read when the window is ANY (R176, R194). -/
def window? (anyPage : Byte) (lo hi : BitVec 32) : Option (Option (Nat × Nat)) :=
  match flag? anyPage with
  | some true => some none
  | some false =>
    match within 0 4194303 lo.toNat, within 0 4194303 hi.toNat with
    | some l, some h => some (some (l, h))
    | _, _ => none
  | none => none

/-- The data test argument of SET_ELEMENT: both pattern and mask, or neither (R176). -/
def dataTest? (hasData : Byte) (pattern mask : Vector Byte 8) : Option (Option (Vector Byte 8 × Vector Byte 8)) :=
  match flag? hasData with
  | some true => some (some (pattern, mask))
  | some false => some none
  | none => none

/-- Sequence number `a` is less than `b`, across the wrap (R61, R148; log entry 13). -/
def seqLess (a b : BitVec 32) : Bool := a != b && decide ((b - a).toNat < 2 ^ 31)

end Sys2Proof.Machine
end

