-- ==== Sys2Proof/Machine/Formats.lean ====
section
/-! DEFINITION. Machine/Formats.lean: the byte layouts of chapter 12: header, command slot, report record, statistics
record. -/

namespace Sys2Proof.Machine

/-! ## Conventions (R192) -/

def byteOf (n : Nat) : Byte := BitVec.ofNat 8 n

/-- A 16-bit field, least significant byte first. -/
def le16 (w : BitVec 16) : List Byte := [w.extractLsb' 0 8, w.extractLsb' 8 8]

/-- A 32-bit field, least significant byte first. -/
def le32 (w : BitVec 32) : List Byte :=
  [w.extractLsb' 0 8, w.extractLsb' 8 8, w.extractLsb' 16 8, w.extractLsb' 24 8]

/-- A 34-bit address in 5 bytes, its upper 6 bits 0. -/
def le40 (a : Addr) : List Byte :=
  let w := a.setWidth 40
  [w.extractLsb' 0 8, w.extractLsb' 8 8, w.extractLsb' 16 8, w.extractLsb' 24 8, w.extractLsb' 32 8]

def zeros (n : Nat) : List Byte := List.replicate n 0

def flagCode (b : Bool) : Byte := if b then 1 else 0

def kindCode : Kind → Byte
  | .read => 0
  | .write => 1

def depthCode (d : Depth) : Byte := byteOf d.num

def levelCode : Level → Byte
  | .low => 0
  | .high => 1

/-- The codes of 12.2. -/
def cpStateCode : CpState → Byte
  | .idle => 0
  | .fetching => 1
  | .executing => 2
  | .posting => 3
  | .waitSpace => 4
  | .errorStop => 5

def groupStateCode : GroupState → Byte
  | .active => 0
  | .draining => 1
  | .entering => 2
  | .asleep => 3
  | .waking => 4
  | .scrubbing => 5
  | .faulted => 6

def lineStateCode : LineState → Byte
  | .on => 0
  | .settling => 1
  | .off => 2

/-- The codes of 12.4. -/
def resultCode : Result → Byte
  | .ok => 0
  | .accepted => 1
  | .badKind => 2
  | .badArgument => 3
  | .conflict => 4
  | .groupBusy => 5
  | .groupPinned => 6
  | .contentKept => 7
  | .notHalted => 8
  | .lineBusy => 9
  | .noControlLeft => 10

def contentCode : Option Content → Byte
  | none => 0
  | some .kept => 1
  | some .lost => 2
  | some .filled => 3
  | some .lostFilled => 4

def faultCode : FaultReason → BitVec 32
  | .entryError => 1
  | .entryTimeout => 2
  | .exitFailed => 3
  | .scrubFailed => 4

/-! ## Header (12.2, R193) -/

/-- The status part, 0x0040 to 0x006F: PART_STATUS, the GROUP_STATE mirror, the LINE_STATE mirror; the reserved bytes
are 0. -/
def statusImage (backpressure : Bool) (cp : CpState) (groups : Vector GroupRec 16) (lines : List (LineState × Level)) :
    List Byte :=
  let faults : BitVec 16 := 
    BitVec.ofNat 16 (allGroups.foldl (fun m g => if groups[g].state = .faulted then m + 2 ^ g.val else m) 0)
  [flagCode backpressure, cpStateCode cp] ++ le16 faults ++ zeros 12
    ++ allGroups.map (fun g => groupStateCode groups[g].state + 16 * depthCode groups[g].depth)
    ++ lines.map (fun l => lineStateCode l.1 + 16 * levelCode l.2) ++ zeros 8

/-- The whole header, 0x0000 to 0x03FF, with the software-owned words as 0 (R153, R195). -/
def headerImage (cmdConsumer reportProducer epoch : BitVec 16) (status : List Byte) : List Byte :=
  zeros 16 ++ le16 cmdConsumer ++ zeros 14 ++ le16 reportProducer ++ zeros 14
    ++ le16 Config.partCode ++ le16 Config.revision ++ le16 epoch ++ zeros 10
    ++ status ++ zeros 912

/-- The bytes of the four software-owned words, whose enables a restart rewrite clears (R193). -/
def softwareWordByte (offset : Nat) : Bool :=
  offset ≤ 1 || (4 ≤ offset && offset ≤ 5) || (8 ≤ offset && offset ≤ 15)

/-! ## Header writes (R150, R153, R193) -/

/-- The level a supply-control output drives: the off level in OFF, the other level in ON and SETTLING (R115). -/
def SupplyLine.output (l : SupplyLine) : Level :=
  match l.state with
  | .off => l.offLevel
  | .on | .settling => l.offLevel.other

/-- The state and the output level of every line, as the LINE_STATE mirror carries them. -/
def lineCodes (lines : Vector SupplyLine 8) : List (LineState × Level) :=
  allLines.map fun n => (lines[n].state, lines[n].output)

/-- A WRITE of whole beats in the control block. -/
def blockWrite (p : Straps) (offset : Nat) (data : List Byte) (enables : List Bool) : Tx :=
  { kind := .write, address := controlAddr p offset, length := data.length / 16, data := data, enables := enables }

/-- A header image as four writes of 256 bytes in ascending address (R153, R158). -/
def headerWrites (p : Straps) (kind : Fin 4 → WriteKind) (image : List Byte) (enables : List Bool) : List CpWrite :=
  ([0, 1, 2, 3] : List (Fin 4)).map fun i =>
    { kind := kind i
      tx := some (blockWrite p (256 * i.val) ((image.drop (256 * i.val)).take 256)
        ((enables.drop (256 * i.val)).take 256)) }

/-- The initial header write: every byte enabled, every index and the EPOCH 0, PART_STATUS and the mirrors as they stand
at the reset (R153). -/
def initialWrites (p : Straps) (groups : Vector GroupRec 16) (lines : Vector SupplyLine 8) : List CpWrite :=
  headerWrites p .initial (headerImage 0 0 0 (statusImage false .idle groups (lineCodes lines)))
    (List.replicate 1024 true)

/-- The wake lines after a reset: every field at its reset value, the last level taken from the input (R127, R131). -/
def resetWakeLines (levels : Vector Level 4) : Vector WakeLine 4 := levels.map fun l => { lastLevel := l }

/-- The requester table after a reset: the control attribute with the requester CRQ names (R68). -/
def resetRequesters (p : Straps) : Vector Requester 16 :=
  (Vector.replicate 16 {}).set p.crq.val { control := true }

/-- A group record after a warm reset, for a group other than the control group (R28). -/
def warmGroup : GroupRec :=
  { state := .waking, wakeSub := some .lines, depth := .off, coldExit := true, timer := some Config.startSettle
    counters := { wakes := 1 } }

/-- The group records after a warm reset: the control group is ACTIVE at once (R2, R28). -/
def warmGroups (p : Straps) : Vector GroupRec 16 := (Vector.replicate 16 warmGroup).set p.cgs.val {}

/-- The command processor after a reset: its write list holds the initial header write alone (R146, R153). -/
def resetCp (writes : List CpWrite) : CmdProc := { writeList := writes }

/-- The downstream port after a reset, the first header write set in the CP write place (R133 to R137, R153). -/
def resetDp (ready : Bool) (generation : BitVec 8) (writes : List CpWrite) : DownPort :=
  { takeReady := ready, generation := generation, writePlace := writes.head?.bind CpWrite.tx }

/-! ## Report record (12.4, R195) -/

/-- The code of a notice. -/
def Notice.code : Notice → Nat
  | .groupAsleep .. => 1
  | .entryRefused .. => 2
  | .groupActive .. => 3
  | .wakeRetry .. => 4
  | .groupFault .. => 5
  | .trapHit .. => 6
  | .queueHigh .. => 7
  | .queueNormal .. => 8
  | .lineState .. => 9
  | .wakeLine .. => 10
  | .ringProtocol .. => 11
  | .restartDone .. => 12
  | .overflow .. => 13

/-- The detail word of a notice. -/
def Notice.detail : Notice → BitVec 32
  | .groupFault _ _ r _ => faultCode r
  | .queueHigh o w => (byteOf w ++ byteOf o).setWidth 32
  | .queueNormal o w => (byteOf w ++ byteOf o).setWidth 32
  | .lineState _ st l => (levelCode l ++ lineStateCode st).setWidth 32
  | .wakeLine _ gs => gs.setWidth 32
  | .ringProtocol _ v => v.setWidth 32
  | .restartDone n e => e ++ n
  | .overflow codes _ => codes
  | _ => 0

def Notice.requester : Notice → Byte
  | .trapHit q .. => byteOf q.val
  | _ => 0

def Notice.group : Notice → Byte
  | .groupAsleep g .. | .entryRefused g .. | .groupActive g .. | .wakeRetry g .. | .groupFault g .. => byteOf g.val
  | .trapHit _ g .. => byteOf g.val
  | _ => 0

def Notice.cause : Notice → Option (BitVec 16)
  | .groupAsleep _ _ c | .entryRefused _ _ c | .groupActive _ _ c | .wakeRetry _ _ c | .groupFault _ _ _ c => c
  | .trapHit _ _ _ _ _ _ c => c
  | _ => none

def Notice.line : Notice → Byte
  | .lineState n .. => byteOf n.val
  | .wakeLine n _ => byteOf n.val
  | .ringProtocol w _ => flagCode w
  | _ => 0

def Notice.depth : Notice → Byte
  | .groupAsleep _ d _ | .entryRefused _ d _ | .wakeRetry _ d _ | .groupFault _ d _ _ => depthCode d
  | _ => 0

def Notice.content : Notice → Byte
  | .groupActive _ c _ => contentCode c
  | _ => 0

/-- Bytes 0x17 to 0x1E of a notice: transaction tag, address, transaction kind, class; NOTICE_OVERFLOW carries its total
in 0x18 to 0x1B. -/
def Notice.txBytes : Notice → List Byte
  | .trapHit _ _ t k c a _ => [t] ++ le40 a ++ [kindCode k, byteOf c.val]
  | .overflow _ n => [0] ++ le32 (BitVec.ofNat 32 n) ++ zeros 3
  | _ => zeros 8

def causeBytes : Option (BitVec 16) → List Byte
  | some c => le16 c ++ [1]
  | none => zeros 3

/-- The 32 bytes of a report record. -/
def reportImage : Report → List Byte
  | .completion c =>
    [1, c.kind, byteOf c.issuer.val, 0] ++ le32 c.time ++ le16 c.slotTag ++ le16 c.seq ++ causeBytes none
      ++ [resultCode c.result] ++ le32 c.detail ++ zeros 12
  | .notice n t =>
    [2, byteOf n.code, n.requester, n.group] ++ le32 t ++ zeros 4 ++ causeBytes n.cause ++ [0] ++ le32 n.detail
      ++ [n.line, n.depth, n.content] ++ n.txBytes ++ [0]

/-! ## Statistics record (12.5, R196) -/

def ClassCounters.image (c : ClassCounters) : List Byte :=
  le32 c.admitted ++ le32 c.forwarded ++ le32 c.held ++ le32 c.refused ++ le32 c.wakesCaused ++ le32 c.readBytes
    ++ le32 c.writeBytes

def GroupCounters.image (c : GroupCounters) : List Byte :=
  le32 c.toNap ++ le32 c.toRetain ++ le32 c.toOff ++ le32 c.wakes ++ le32 c.faults ++ le32 c.strays

/-- The 832 bytes of the statistics record. -/
def statsImage (time : BitVec 32) (seq epoch : BitVec 16) (clear : Bool) (peak occupancy : Nat)
    (classes : Vector ClassCounters 8) (groups : Vector GroupRec 16) (requesters : Vector Requester 16)
    (controlAdmitted controlDenied : BitVec 32) : List Byte :=
  le32 time ++ le16 seq ++ le16 epoch ++ [flagCode clear, byteOf peak, byteOf occupancy] ++ zeros 5
    ++ allClasses.flatMap (fun c => classes[c].image)
    ++ allGroups.flatMap (fun g => groups[g].counters.image)
    ++ allRequesters.flatMap (fun q =>
        le32 requesters[q].admitted ++ le32 requesters[q].denied ++ le32 requesters[q].trapCount)
    ++ le32 controlAdmitted ++ le32 controlDenied ++ zeros 8

/-! ## Command slot (12.3, R194) -/

def byteAt (bs : List Byte) (o : Nat) : Byte := bs.getD o 0
def wordAt16 (bs : List Byte) (o : Nat) : BitVec 16 := byteAt bs (o + 1) ++ byteAt bs o
def wordAt32 (bs : List Byte) (o : Nat) : BitVec 32 := wordAt16 bs (o + 2) ++ wordAt16 bs o

/-- Eight bytes as a byte sequence: byte k at offset o + k (R192). -/
def bytesAt8 (bs : List Byte) (o : Nat) : Vector Byte 8 :=
  ⟨#[byteAt bs o, byteAt bs (o + 1), byteAt bs (o + 2), byteAt bs (o + 3), byteAt bs (o + 4), byteAt bs (o + 5),
     byteAt bs (o + 6), byteAt bs (o + 7)], rfl⟩

/-- Term t of a SET_CLASS slot, at 0x10 + 8 t. -/
def termAt (bs : List Byte) (t : Nat) : TermArg :=
  let o := 0x10 + 8 * t
  ⟨byteAt bs o, byteAt bs (o + 1), byteAt bs (o + 2), byteAt bs (o + 3), byteAt bs (o + 4)⟩

/-- The kind and the argument bytes of a command slot. -/
def decodeBody (bs : List Byte) : CmdBody :=
  let b := byteAt bs
  match (b 0x02).toNat with
  | 0x01 => .nop
  | 0x02 => .setRegion (b 0x08) (b 0x09) (b 0x0A) (b 0x0B) (wordAt32 bs 0x0C) (wordAt32 bs 0x10) (wordAt32 bs 0x14)
      (wordAt16 bs 0x18)
  | 0x03 => .clearRegion (b 0x08)
  | 0x04 => .clearLost (b 0x08)
  | 0x05 => .setGroupPolicy (b 0x08) (b 0x09) (wordAt32 bs 0x0C) (wordAt32 bs 0x10) (wordAt32 bs 0x14)
  | 0x06 => .forceDepth (b 0x08) (b 0x09)
  | 0x07 => .wakeGroups (wordAt16 bs 0x08)
  | 0x08 => .recoverGroup (b 0x08)
  | 0x09 => .setLine (b 0x08) (b 0x09) (b 0x0A) (wordAt16 bs 0x0C) (wordAt16 bs 0x0E)
  | 0x0A => .forceLine (b 0x08) (b 0x09)
  | 0x0B => .setWakeLine (b 0x08) (b 0x09) (b 0x0A) (wordAt16 bs 0x0C)
  | 0x0C => .setElement (b 0x08) (b 0x09) (b 0x0A) (b 0x0B) (wordAt32 bs 0x0C) (wordAt32 bs 0x10) (b 0x14)
      (bytesAt8 bs 0x18) (bytesAt8 bs 0x20) (wordAt16 bs 0x28)
  | 0x0D => .setClass (b 0x08) (b 0x09) (b 0x0A) (b 0x0B) (wordAt16 bs 0x0C) (termAt bs 0) (termAt bs 1) (termAt bs 2)
      (termAt bs 3)
  | 0x0E => .setRequester (b 0x08) (b 0x09) (b 0x0A) (b 0x0B) (b 0x0C)
  | 0x0F => .releaseTrap (b 0x08) (b 0x09)
  | 0x10 => .setQueueLimits (b 0x08) (b 0x09)
  | 0x11 => .setTimeouts (wordAt16 bs 0x08) (wordAt16 bs 0x0A) (wordAt16 bs 0x0C) (wordAt16 bs 0x0E)
  | 0x12 => .snapshot (b 0x08)
  | _ => .unknown (b 0x02)

/-- A command slot: its slot tag, and its kind and arguments. -/
def decodeSlot (bs : List Byte) : BitVec 16 × CmdBody := (wordAt16 bs 0x00, decodeBody bs)

end Sys2Proof.Machine

namespace Sys2Proof

/-- The kind byte of a command, as read from the slot. -/
def CmdBody.kind : CmdBody → Byte
  | .nop => 0x01
  | .setRegion .. => 0x02
  | .clearRegion .. => 0x03
  | .clearLost .. => 0x04
  | .setGroupPolicy .. => 0x05
  | .forceDepth .. => 0x06
  | .wakeGroups .. => 0x07
  | .recoverGroup .. => 0x08
  | .setLine .. => 0x09
  | .forceLine .. => 0x0A
  | .setWakeLine .. => 0x0B
  | .setElement .. => 0x0C
  | .setClass .. => 0x0D
  | .setRequester .. => 0x0E
  | .releaseTrap .. => 0x0F
  | .setQueueLimits .. => 0x10
  | .setTimeouts .. => 0x11
  | .snapshot .. => 0x12
  | .unknown k => k

end Sys2Proof
end

