-- ==== Sys2Proof/Machine/State.lean ====
section
/-! DEFINITION. Machine/State.lean: the state of the block, the reasons a step can stop, and the state after reset. -/

namespace Sys2Proof.Machine

/-- The classifier: its programme and its counters (R88, R91, R100). -/
structure Classifier where
  programme : Programme := {}
  counters : Vector ClassCounters 8 := Vector.replicate 8 {}
  deriving DecidableEq, Repr

/-- The state of the block. The first fourteen fields are the spec's blocks; `outputs`, `freeDraws` and `pending` are the
model's own (log entries 9, 1, 3). -/
structure State where
  /-- the straps as latched at the last reset -/
  straps : Straps
  /-- part time (R184) -/
  partTime : BitVec 32
  /-- the timeout set (R180) -/
  timeouts : Timeouts
  /-- the group records of GC0 to GC15 (R3) -/
  groups : Vector GroupRec 16
  /-- the region table (R30) -/
  regions : Vector Region 48
  /-- the scrub queue and engine (R41, R42) -/
  scrub : Scrub
  /-- the upstream port (R49, R52) -/
  up : UpPort
  /-- the admission unit (R60) -/
  au : AdmissionUnit
  /-- the requester table (R68, R105) -/
  requesters : Vector Requester 16
  /-- the hold queue (R71, R82) -/
  hold : HoldQueue
  /-- the activity classifier (chapter 5) -/
  ac : Classifier
  /-- the supply line unit (R115, R116, R120) -/
  slu : SupplyUnit
  /-- the wake-line records (R127) -/
  wlu : Vector WakeLine 4
  /-- the downstream port (chapter 8) -/
  dp : DownPort
  /-- the command processor (R146, R187) -/
  cp : CmdProc
  /-- what the part put on its ports at the last event, oldest first -/
  outputs : List Output
  /-- how many of the command processor's writes with disabled bytes have been built -/
  freeDraws : Nat
  /-- the commands that wait, the next one first -/
  pending : List Instr
  deriving DecidableEq, Repr

/-- The reasons for which the block stops with a fault. There is none: no event of the spec stops the part. What the spec
calls FAULTED and ERROR_STOP are states of a group and of the command processor. -/
inductive Fault where
  deriving DecidableEq, Repr

/-- The reasons for which a command is refused. -/
inductive Refusal where
  /-- Raised by `exec` alone, for a command that has no meaning yet: safe, since nothing is claimed of it. No arm of this
  model raises it. -/
  | notModelled (mnemonic : String)
  deriving DecidableEq, Repr

/-- The machine right after reset: a cold reset with the pins of `Config.powerUpPins`, nothing presented at the upstream
port, no command waiting. Every block is at its cold-reset values (R3, R30, R41, R42, R52, R54, R60, R61, R65, R66, R68,
R71, R82, R85, R88, R91, R100, R105, R115, R116, R127, R133 to R137, R146, R180, R184, R187); the write list holds the
initial header write, whose first part is set in the CP write place (R153). The pins (log entry 2), and that no wake line
has a sample due (log entry 8), are the model's choices. -/
def State.reset : State :=
  let writes := initialWrites Config.powerUpPins.straps (Vector.replicate 16 {}) (Vector.replicate 8 {})
  { straps := Config.powerUpPins.straps
    partTime := 0
    timeouts := {}
    groups := Vector.replicate 16 {}
    regions := Vector.replicate 48 {}
    scrub := {}
    up := {}
    au := {}
    requesters := resetRequesters Config.powerUpPins.straps
    hold := {}
    ac := {}
    slu := {}
    wlu := resetWakeLines Config.powerUpPins.wake
    dp := resetDp Config.powerUpPins.ready 0 writes
    cp := resetCp writes
    outputs := []
    freeDraws := 0
    pending := [] }

end Sys2Proof.Machine
end

