-- ==== Sys2Proof/Machine/Ops.lean ====
section
/-! DEFINITION. Machine/Ops.lean: the named reads and updates of the state, the mirrored change, and the path by which
every report and every write of the command processor goes (chapter 9, 11.3). -/

namespace Sys2Proof.Machine

/-! ## Named updates, one for each block -/

def State.modCp (f : CmdProc → CmdProc) (s : State) : State := { s with cp := f s.cp }
def State.modDp (f : DownPort → DownPort) (s : State) : State := { s with dp := f s.dp }
def State.modHold (f : HoldQueue → HoldQueue) (s : State) : State := { s with hold := f s.hold }
def State.modAu (f : AdmissionUnit → AdmissionUnit) (s : State) : State := { s with au := f s.au }
def State.modUp (f : UpPort → UpPort) (s : State) : State := { s with up := f s.up }
def State.modScrub (f : Scrub → Scrub) (s : State) : State := { s with scrub := f s.scrub }
def State.modSlu (f : SupplyUnit → SupplyUnit) (s : State) : State := { s with slu := f s.slu }
def State.modProgramme (f : Programme → Programme) (s : State) : State :=
  { s with ac := { s.ac with programme := f s.ac.programme } }
def State.modCount (c : ClassNo) (f : ClassCounters → ClassCounters) (s : State) : State :=
  { s with ac := { s.ac with counters := s.ac.counters.set c (f s.ac.counters[c]) } }
def State.modReq (q : ReqNo) (f : Requester → Requester) (s : State) : State :=
  { s with requesters := s.requesters.set q (f s.requesters[q]) }
def State.setGroup (g : GroupNo) (r : GroupRec) (s : State) : State := { s with groups := s.groups.set g r }
def State.setRegion (i : RegionNo) (r : Region) (s : State) : State := { s with regions := s.regions.set i r }
def State.setLine (n : LineNo) (r : SupplyLine) (s : State) : State :=
  { s with slu := { s.slu with lines := s.slu.lines.set n r } }
def State.setWakeLine (n : WakeNo) (r : WakeLine) (s : State) : State := { s with wlu := s.wlu.set n r }
def State.setTimeouts (t : Timeouts) (s : State) : State := { s with timeouts := t }
def State.setPartTime (t : BitVec 32) (s : State) : State := { s with partTime := t }
def State.setOutputs (o : List Output) (s : State) : State := { s with outputs := o }
def State.setFreeDraws (n : Nat) (s : State) : State := { s with freeDraws := n }
def State.setPending (p : List Instr) (s : State) : State := { s with pending := p }

/-- A record leaves the part by one of its ports. -/
def State.emit (o : Output) (s : State) : State := s.setOutputs (s.outputs ++ [o])

/-- The beginning of an event: nothing has been put on the ports yet. -/
def State.begin (s : State) : State := s.setOutputs []

/-! ## Reads -/

/-- The control group (R2). -/
def State.controlGroup (s : State) : GroupNo := s.straps.cgs

/-- The group of an address, none at or beyond installed memory (R1, R55). -/
def State.groupOf (s : State) (a : Addr) : Option GroupNo := groupOfPage s.straps (pageOf a)

/-- The class record an entry's class names, as it stands now (R95, R96). -/
def State.cls (s : State) (c : ClassNo) : ClassRec := s.ac.programme.classes[c]

/-- The tracking entry of a reference. -/
def State.track? (s : State) (r : TrackRef) : Option TrackEntry := s.au.tracking.find? fun e => e.ref == r

/-- The tracking entry of a reference is rewritten. -/
def State.modTrack (r : TrackRef) (f : TrackEntry → TrackEntry) (s : State) : State :=
  s.modAu fun a => { a with tracking := a.tracking.map fun e => if e.ref = r then f e else e }

/-- The slot whose transaction has the source, lowest number first. -/
def DownPort.find (d : DownPort) (src : SlotSource) : Option SlotNo :=
  allSlots.find? fun k => d.slots[k].map Slot.source == some src

/-- A transaction of the source is downstream. -/
def DownPort.isDown (d : DownPort) (src : SlotSource) : Bool := (d.find src).isSome

/-- The lowest-numbered free slot (R134). -/
def DownPort.freeSlot (d : DownPort) : Option SlotNo := allSlots.find? fun k => d.slots[k].isNone

/-- Free places of the forward queue (R135). -/
def DownPort.freePlaces (d : DownPort) : Nat := Config.forwardPlaces - d.forward.length

/-- The READY count of the hold queue (R71). -/
def HoldQueue.readyCount (h : HoldQueue) : Nat := (h.entries.filter fun e => e.state == .ready).length

/-- The number of pending commands (R146). -/
def CmdProc.pendingCommands (c : CmdProc) : Nat := (c.producerShadow - c.cmdConsumer).toNat

/-- The free slots of the report ring (R186). -/
def CmdProc.freeReports (c : CmdProc) : Nat := Config.reportSlots - (c.reportProducer - c.consumerShadow).toNat

/-! ## The write list and the mirrored change (R150, R152) -/

/-- The write joins the tail of the write list. -/
def appendWrite (k : WriteKind) (tx : Option Tx) (s : State) : State :=
  s.modCp fun c => { c with writeList := c.writeList ++ [{ kind := k, tx := tx }] }

/-- A write of one beat whose first bytes alone are enabled (R193). What it carries in the others is the free value of log
entry 1. -/
def beatWrite (p : Straps) (draw offset : Nat) (bytes : List Byte) : Tx :=
  blockWrite p offset
    (bytes ++ (List.range (16 - bytes.length)).map fun i => Config.disabledByte draw (bytes.length + i))
    (bytes.map (fun _ => true) ++ List.replicate (16 - bytes.length) false)

/-- A one-beat header write is built and joins the write list. -/
def appendBeat (k : WriteKind) (offset : Nat) (bytes : List Byte) (s : State) : State :=
  (appendWrite k (some (beatWrite s.straps s.freeDraws offset bytes)) s).setFreeDraws (s.freeDraws + 1)

/-- The oldest write is set in the CP write place, or downstream. A CP write that left the list (R159) does not count. -/
def State.headSet (s : State) : Bool := s.dp.writePlace.isSome || (s.dp.isDown .cpWrite && !s.cp.orphan)

def CpWrite.isMirror (w : CpWrite) : Bool := w.kind == .mirror

/-- A mirrored change (R152): where the mirror write is set or downstream, and in ERROR_STOP, re-mirror pending becomes 1;
where it waits in the list nothing is done; else a mirror write is appended. -/
def mirrorChange (s : State) : State :=
  if s.cp.state = .errorStop ∨ ((s.cp.writeList.head?.map CpWrite.isMirror).getD false ∧ s.headSet) then
    s.modCp fun c => { c with reMirror := true }
  else if s.cp.writeList.any CpWrite.isMirror then s
  else appendWrite .mirror none s

/-- The CP state changes; the change is mirrored (R152). -/
def setCpState (st : CpState) (s : State) : State :=
  if s.cp.state = st then s else mirrorChange (s.modCp fun c => { c with state := st })

/-- A group record is written; a change of the group's state or current depth is mirrored (R4, R152). -/
def putGroup (g : GroupNo) (r : GroupRec) (s : State) : State :=
  if s.groups[g].state = r.state ∧ s.groups[g].depth = r.depth then s.setGroup g r else mirrorChange (s.setGroup g r)

/-- A line record is written; a change of the line's state or output level is mirrored (R124, R152). -/
def putLine (n : LineNo) (r : SupplyLine) (s : State) : State :=
  if s.slu.lines[n].state = r.state ∧ s.slu.lines[n].output = r.output then s.setLine n r
  else mirrorChange (s.setLine n r)

/-- The backpressure flag changes; the change is mirrored (R152). -/
def setBackpressure (b : Bool) (s : State) : State := mirrorChange (s.modHold fun h => { h with backpressure := b })

/-! ## Reports (R151, R186 to R188) -/

/-- A report takes the slot of the report producer, and its record write and REPORT_PRODUCER write are appended (R151). That
they join the list however many writes it holds, past the count of R150 where software has acknowledged reports not yet
published (R149, R186), is the model's choice (log entry 29). -/
def assignReport (r : Report) (ofCompletion : Bool) (s : State) : State :=
  let i := s.cp.reportProducer
  let record := blockWrite s.straps (0xC00 + 32 * (i.toNat % Config.reportSlots)) (reportImage r) (List.replicate 32 true)
  appendBeat (.publish (i + 1) ofCompletion) 0x20 (le16 (i + 1))
    (appendWrite .record (some record) (s.modCp fun c => { c with reportProducer := i + 1 }))

/-- The overflow test (R188). -/
def overflowTest (s : State) : State :=
  if s.cp.lostSet ≠ 0 ∧ s.cp.state ≠ .errorStop ∧ Config.reservedSlots < s.cp.freeReports then
    (assignReport (.notice (.overflow s.cp.lostSet s.cp.lostTotal) s.partTime) false s).modCp
      fun c => { c with lostSet := 0, lostTotal := 0 }
  else s

/-- A notice is dropped: its code joins the lost-notice set and the lost total goes up, to its greatest value (R187). -/
def loseNotice (n : Notice) (s : State) : State :=
  s.modCp fun c =>
    { c with lostSet := c.lostSet ||| (1#32 <<< n.code), lostTotal := min (c.lostTotal + 1) 4294967295 }

/-- A notice is handed over: the overflow test first, then it is written if more than four slots are free, else lost; in
ERROR_STOP it is lost (R186, R188). -/
def raiseNotice (n : Notice) (s : State) : State :=
  if s.cp.state = .errorStop then loseNotice n s
  else
    let s := overflowTest s
    if Config.reservedSlots < s.cp.freeReports then assignReport (.notice n s.partTime) false s else loseNotice n s

/-- A completion asks for a slot: with one free it is assigned and the CP enters POSTING, else the CP is in WAIT_SPACE
(R155, R156, R186). The rules name the assignment before the change of state, so the record write and the REPORT_PRODUCER
write join the list ahead of a mirror write that this change appends; the place of the mirror write is the model's choice
(log entry 25). -/
def postCompletion (r : CompletionReport) (s : State) : State :=
  if 0 < s.cp.freeReports then setCpState .posting (assignReport (.completion r) true s) else setCpState .waitSpace s

end Sys2Proof.Machine
end

