-- ==== Sys2Proof/Machine/Flags.lean ====
section
/-! DEFINITION. Machine/Flags.lean: the levels and flags the part computes from its state: IRQ_N, the supply-control
outputs, the acceptance state of a lane, the backpressure flag. -/

namespace Sys2Proof.Machine

/-! ## IRQ_N (R160) -/

/-- IRQ_N is asserted: in ERROR_STOP, or while IRQ_ENABLE is nonzero and the published producer differs from the consumer
shadow. -/
def CmdProc.irqAsserted (c : CmdProc) : Bool :=
  c.state == .errorStop || (c.irqEnable != 0 && c.published != c.consumerShadow)

/-- The level of IRQ_N, active low. -/
def State.irqN (s : State) : Level := if s.cp.irqAsserted then .low else .high

/-! ## Supply-control outputs (R115) -/

/-- The level of SUP0 to SUP7. -/
def State.sup (s : State) (n : LineNo) : Level := s.slu.lines[n].output

/-! ## Acceptance state of a lane (R49 to R51) -/

/-- The two lanes of a requester. -/
inductive Lane where
  | control
  | memory
  deriving DecidableEq, Repr

/-- Why a lane is STALLED: the first unmet condition (R50, R51). -/
inductive StallReason where
  | protocolPlace
  | trackingFull
  | forwardRoom
  | backpressure
  | quota
  | headerPending
  deriving DecidableEq, Repr

/-- OPEN, or STALLED with its reason (R49). -/
inductive LaneState where
  | isOpen
  | stalled (reason : StallReason)
  deriving DecidableEq, Repr

def State.memoryEntries (s : State) : Nat := (s.au.tracking.filter fun e => !e.control).length

/-- The conditions of R50, in their order, for a request in a memory lane. -/
def State.memoryLane (s : State) (r : Request) : LaneState :=
  if s.au.protocolPlace.isSome then .stalled .protocolPlace
  else if ¬ (s.memoryEntries < Config.memoryTrackingPlaces ∧ s.au.tracking.length < Config.trackingPlaces) then
    .stalled .trackingFull
  else if ¬ s.hold.readyCount < s.dp.freePlaces then .stalled .forwardRoom
  else if s.hold.backpressure then .stalled .backpressure
  else if ¬ s.requesters[r.requester].outstanding < s.requesters[r.requester].quota then .stalled .quota
  else .isOpen

/-- The conditions of R51, in their order, for a request in a control lane. -/
def State.controlLane (s : State) (r : Request) : LaneState :=
  if s.au.protocolPlace.isSome then .stalled .protocolPlace
  else if ¬ s.au.tracking.length < Config.trackingPlaces then .stalled .trackingFull
  else if ¬ 0 < s.dp.freePlaces then .stalled .forwardRoom
  else if r.kind = .write ∧ s.cp.headerDone = false then .stalled .headerPending
  else .isOpen

/-- What the conditions of the lane the request's address selects make of it. -/
def State.laneOf (s : State) (r : Request) : LaneState :=
  if r.isControl s.straps then s.controlLane r else s.memoryLane r

/-- The request in a lane's place. -/
def UpPort.place (u : UpPort) (l : Lane) (q : ReqNo) : Option Request :=
  match l with
  | .control => u.control[q]
  | .memory => u.memory[q]

/-- The acceptance state of a requester's lane: OPEN while its place is empty (R49). -/
def State.laneState (s : State) (l : Lane) (q : ReqNo) : LaneState :=
  match s.up.place l q with
  | none => .isOpen
  | some r => s.laneOf r

/-! ## Backpressure (R82) -/

/-- The backpressure test. The mirror write of the flag's change joins the write list before the notice's writes (log entry
27). -/
def backpressureTest (s : State) : State :=
  let n := s.hold.entries.length
  if s.hold.backpressure = false ∧ s.hold.high ≤ n then
    raiseNotice (.queueHigh n s.hold.high) (setBackpressure true s)
  else if s.hold.backpressure = true ∧ n ≤ s.hold.low then
    raiseNotice (.queueNormal n s.hold.low) (setBackpressure false s)
  else s

end Sys2Proof.Machine
end

