-- ==== Sys2Proof/Machine/Regions.lean ====
section
/-! DEFINITION. Machine/Regions.lean: the region table's lookup, permission check, KEEP test and cold-exit marking (chapter
2). -/

namespace Sys2Proof.Machine

/-- The descriptor is valid and its pages contain the page (R31, R32). -/
def Region.covers (r : Region) (page : Nat) : Bool :=
  r.valid && decide (r.basePage ≤ page) && decide (page < r.basePage + r.pageCount)

/-- The lookup: the valid region whose pages contain the page, or none for "unclaimed" (R32). -/
def State.lookup (s : State) (page : Nat) : Option RegionNo := allRegions.find? fun i => s.regions[i].covers page

/-- The descriptor is valid and its region lies in the group (R31). -/
def Region.inGroup (p : Straps) (r : Region) (g : GroupNo) : Bool :=
  r.valid && groupOfPage p r.basePage == some g

/-- The descriptor is a valid region of the group with the policy. -/
def State.hasRegion (s : State) (g : GroupNo) (k : Policy) (i : RegionNo) : Bool :=
  s.regions[i].inGroup s.straps g && s.regions[i].policy == k

/-- The lowest-numbered valid region of the group with the policy. -/
def State.firstRegion (s : State) (g : GroupNo) (k : Policy) : Option RegionNo :=
  allRegions.find? fun i => s.hasRegion g k i

/-- The group has a valid region with policy KEEP (R35). -/
def State.hasKeep (s : State) (g : GroupNo) : Bool := (s.firstRegion g .keep).isSome

/-- The permission check of R33 for a requester and a kind; bit n of the mask stands for requester n (log entry 26). -/
def Region.permits (r : Region) (q : ReqNo) (k : Kind) : Bool :=
  r.mask.getLsbD q.val && (match k with | .read => r.readAllowed | .write => r.writeAllowed)

/-- The lost test of a decision point: a READ whose page lies in a region with lost flag 1 (R34, R37). -/
def State.lostRead (s : State) (t : Tx) : Bool :=
  match t.kind, s.lookup (pageOf t.address) with
  | .read, some i => s.regions[i].lost
  | _, _ => false

/-- The cold-exit marking: every valid LOSE_OK region of the group has its lost flag set (R36). -/
def markLost (g : GroupNo) (s : State) : State :=
  { s with regions := s.regions.map fun r =>
      if r.inGroup s.straps g ∧ r.policy = .loseOk then { r with lost := true } else r }

/-- The content outcome of a cold exit (R18). -/
def State.coldContent (s : State) (g : GroupNo) : Content :=
  match (s.firstRegion g .loseFill).isSome, (s.firstRegion g .loseOk).isSome with
  | false, _ => .lost
  | true, false => .filled
  | true, true => .lostFilled

end Sys2Proof.Machine
end

