-- ==== Sys2Proof/Machine/Supply.lean ====
section
/-! DEFINITION. Machine/Supply.lean: the supply line unit (chapter 7.1 to 7.5), and the two group power channel requests,
which its lines hold back (R12, R16, R17). -/

namespace Sys2Proof.Machine

/-- A sleep view at or beyond a threshold (R117). -/
def Threshold.met (t : Threshold) : Option Sleep → Bool
  | some .retain => t == .retain
  | some .off => true
  | _ => false

/-- The off condition of a line (R117); bit n of its dependency set stands for group n (log entry 26). -/
def State.offCondition (s : State) (l : SupplyLine) : Bool :=
  !l.forced && l.deps != 0 && allGroups.all fun g => !l.deps.getLsbD g.val || l.threshold.met s.slu.view[g]

/-- An evaluation of a line (R117), with the notice of R124 where it enters OFF. The mirror write of the change joins the
write list before the notice's writes (log entry 27). -/
def evaluateLine (n : LineNo) (s : State) : State :=
  let l := s.slu.lines[n]
  match l.state, s.offCondition l with
  | .on, true | .settling, true =>
    raiseNotice (.lineState n .off l.offLevel) (putLine n { l with state := .off, timer := none } s)
  | .off, false => putLine n { l with state := .settling, timer := some l.settle } s
  | _, _ => s

/-- The line depends on the group (log entry 26). -/
def State.lineNeeds (s : State) (g : GroupNo) (n : LineNo) : Bool := s.slu.lines[n].deps.getLsbD g.val

/-- The view of a group changes, and every line whose dependency set contains it is evaluated (R116). -/
def reportSleep (g : GroupNo) (v : Option Sleep) (s : State) : State :=
  allLines.foldl (fun s n => if s.lineNeeds g n then evaluateLine n s else s)
    (s.modSlu fun u => { u with view := u.view.set g v })

/-- Every line in the group's current line set is ON (R17, R120). -/
def State.linesReady (s : State) (g : GroupNo) : Bool :=
  allLines.all fun n => !s.lineNeeds g n || s.slu.lines[n].state == .on

/-- The exit timeout of a wake (R17). -/
def exitTimeout (t : Timeouts) (cold : Bool) (d : Depth) : Nat :=
  if cold then t.exitOff
  else match d with
    | .nap => t.exitNap
    | .retain => t.exitRetain
    | _ => t.exitOff

/-- EXIT is sent with the group's cold exit flag, and the exit timeout is loaded (R17, R19). -/
def sendExit (g : GroupNo) (s : State) : State :=
  let r := s.groups[g]
  (putGroup g { r with wakeSub := some .exiting, timer := some (exitTimeout s.timeouts r.coldExit r.depth) } s).emit
    (.exit g r.coldExit)

/-- A group joins or leaves the waiting set (R120). -/
def setWaiting (g : GroupNo) (b : Bool) (s : State) : State :=
  s.modSlu fun u => { u with waiting := u.waiting.set g b }

/-- The LINES wait of a group begins: it ends at once with an EXIT when the line set is ready, else the group joins the
waiting set (R17, R120). -/
def startLinesWait (g : GroupNo) (s : State) : State :=
  if s.linesReady g then sendExit g s else setWaiting g true s

/-- A wake starts (R16): with the cold exit flag when the depth is OFF or `cold` asks for it. -/
def wakeStart (g : GroupNo) (cold : Bool) (s : State) : State :=
  let r := s.groups[g]
  startLinesWait g (reportSleep g none (putGroup g
    { r with
      state := .waking, wakeSub := some .lines, wakePending := false, retryUsed := false
      coldExit := cold || r.depth == .off, counters := { r.counters with wakes := r.counters.wakes + 1 } } s))

/-- The waiting set is examined: every waiting group whose line set is all ON is reported ready and sends EXIT (R120). -/
def examineWaiting (s : State) : State :=
  allGroups.foldl
    (fun s g => if s.slu.waiting[g] && s.linesReady g then sendExit g (setWaiting g false s) else s) s

/-- ENTER is sent for the target depth and the entry timeout is loaded (R12). An entry that starts from ASLEEP is reported
to the supply line unit. -/
def sendEnter (g : GroupNo) (d : Sleep) (s : State) : State :=
  let r := s.groups[g]
  let t := (putGroup g { r with state := .entering, target := some d, timer := some s.timeouts.entry } s).emit (.enter g d)
  if r.state = .asleep then reportSleep g none t else t

/-- A settle expires: the line is ON, LINE_STATE is raised, and the waiting set is examined (R119, R124). The mirror write
of the change joins the write list before the notice's writes (log entry 27). -/
def settleEnd (n : LineNo) (s : State) : State :=
  let l := s.slu.lines[n]
  let l' := { l with state := .on, timer := none }
  examineWaiting (raiseNotice (.lineState n .on l'.output) (putLine n l' s))

end Sys2Proof.Machine
end

