-- ==== Sys2Proof/Machine/Hold.lean ====
section
/-! DEFINITION. Machine/Hold.lean: the hold queue (chapter 4) and the claims that pass between it and the group controllers
within one event (R24, R76 to R81). The claims still to be carried out stand in a list, the next one first: what a
claim gives rise to joins the tail, and READY entries move when every other claim is done (log entry 11). -/

namespace Sys2Proof.Machine

/-- A claim to be carried out within the present event. -/
inductive Work where
  /-- a wake request made for a transaction of the class (R24, R102) -/
  | wakeRequest (g : GroupNo) (c : ClassNo)
  /-- a pre-wake (R24) -/
  | preWake (g : GroupNo)
  /-- the entry is examined under the due test (R76) -/
  | examine (r : TrackRef)
  /-- the oldest remaining entry of the requester is examined (R79) -/
  | oldest (q : ReqNo)
  /-- a READY entry moves if a forward-queue place is free (R78) -/
  | moveReady
  /-- the entry is answered FAILED (R81) -/
  | failHeld (r : TrackRef)
  deriving DecidableEq, Repr

/-! ## Reads -/

def HoldQueue.find? (h : HoldQueue) (r : TrackRef) : Option HoldEntry := h.entries.find? fun e => e.ref == r

/-- The requester's oldest held entry. -/
def HoldQueue.oldest? (h : HoldQueue) (q : ReqNo) : Option HoldEntry := h.entries.find? fun e => e.requester == q

/-- The entry is the oldest held entry of its requester (R76). -/
def HoldQueue.isOldest (h : HoldQueue) (e : HoldEntry) : Bool := (h.oldest? e.requester).map HoldEntry.ref == some e.ref

/-- The oldest READY entry (R78). -/
def HoldQueue.oldestReady? (h : HoldQueue) : Option HoldEntry := h.entries.find? fun e => e.state == .ready

/-- The WAITING entries of a group, in admission order, to be examined when it reaches ACTIVE (R76). -/
def State.toldActive (s : State) (g : GroupNo) : List Work :=
  (s.hold.entries.filter fun e => e.group == g && e.state == .waiting).map fun e => .examine e.ref

/-- The group has an entry WAITING with reason WAKE (R13). -/
def State.hasWakeEntry (s : State) (g : GroupNo) : Bool :=
  s.hold.entries.any fun e => e.group == g && e.state == .waiting && e.reason == .wake

/-- The due test (R76). -/
def State.due (s : State) (e : HoldEntry) : Bool :=
  (e.reason == .wake || e.reason == .order)
    && (s.requesters[e.requester].mode == .relaxed || s.hold.isOldest e)
    && (e.reason == .order || s.groups[e.group].state == .active)

/-! ## Updates -/

def modEntry (r : TrackRef) (f : HoldEntry → HoldEntry) (s : State) : State :=
  s.modHold fun h => { h with entries := h.entries.map fun e => if e.ref = r then f e else e }

def setReason (r : TrackRef) (k : HoldReason) (s : State) : State := modEntry r (fun e => { e with reason := k }) s

/-- A response joins the response list, and the entry is ANSWERING with the status (R62 to R65). -/
def answerTrack (r : TrackRef) (st : Status) (data : Option (List Byte)) (s : State) : State :=
  (s.modTrack r fun e => { e with state := .answering, status := some st, readData := data }).modAu
    fun a => { a with responses := a.responses ++ [.tracked r] }

/-- An entry leaves the hold queue: occupancy and held counts go down and the backpressure test is applied (R79). -/
def leave (e : HoldEntry) (s : State) : State :=
  let s := (s.modHold fun h => { h with entries := h.entries.filter fun x => x.ref != e.ref }).modReq e.requester
    fun q => { q with held := q.held - 1 }
  backpressureTest (s.setGroup e.group { s.groups[e.group] with held := s.groups[e.group].held - 1 })

/-- A transaction is placed in the forward queue: its tracking entry is QUEUED and its group's in-flight count goes up
(R9, R57, R59, R78). -/
def place (r : TrackRef) (g : GroupNo) (s : State) : State :=
  let s := (s.modTrack r fun e => { e with state := .queued }).modDp fun d => { d with forward := d.forward ++ [r] }
  s.setGroup g { s.groups[g] with inFlight := s.groups[g].inFlight + 1 }

/-- A held entry is answered and leaves the queue; the class's refused counter goes up, and for DENIED the requester's
denied counter (R64, R66, R79, R100). -/
def answerHeld (e : HoldEntry) (st : Status) (s : State) : State × List Work :=
  let s := (leave e (answerTrack e.ref st none s)).modCount e.cls fun c => { c with refused := c.refused + 1 }
  (if st = .denied then s.modReq e.requester fun q => { q with denied := q.denied + 1 } else s, [.oldest e.requester])

/-- An unforced drain is cancelled: the group is ACTIVE again, its idle timer reloaded, and the hold queue is told (R7). -/
def cancelDrain (g : GroupNo) (s : State) : State × List Work :=
  (putGroup g { s.groups[g] with state := .active, target := none, idle := 0 } s, s.toldActive g)

/-! ## Re-decision (R77) -/

/-- A held entry is decided again. Row 1 is left out for the trapped entry that a FORWARD release disposes of (R110). -/
def redecide (e : HoldEntry) (row1 : Bool) (s : State) : State × List Work :=
  let q := s.requesters[e.requester]
  let g := s.groups[e.group]
  let wake := (s.cls e.cls).wake
  if row1 ∧ q.halted then (setReason e.ref .halt s, [])
  else if q.mode = .ordered ∧ ¬ s.hold.isOldest e then
    (setReason e.ref .order s, if g.state ≠ .active ∧ wake then [.wakeRequest e.group e.cls] else [])
  else if g.state = .faulted then answerHeld e .failed s
  else if g.state = .active ∨ (g.state = .draining ∧ g.forced = false) then
    if s.lostRead e.tx then answerHeld e .lost s
    else (modEntry e.ref (fun e => { e with state := .ready }) s, [.moveReady])
  else if wake then (setReason e.ref .wake s, [.wakeRequest e.group e.cls])
  else answerHeld e .asleep s

/-! ## The claims of R24 -/

/-- A wake request, by the group's state (R24); a wake it starts is counted for the class (R102). -/
def wakeRequest (g : GroupNo) (c : ClassNo) (s : State) : State × List Work :=
  let r := s.groups[g]
  if g = s.controlGroup then (s, [])
  else match r.state with
    | .draining => if r.forced then (putGroup g { r with wakePending := true } s, []) else cancelDrain g s
    | .entering => (putGroup g { r with wakePending := true } s, [])
    | .asleep => ((wakeStart g false s).modCount c fun k => { k with wakesCaused := k.wakesCaused + 1 }, [])
    | .active | .waking | .scrubbing | .faulted => (s, [])

/-- A pre-wake, by the group's state (R24). -/
def preWake (g : GroupNo) (s : State) : State × List Work :=
  let r := s.groups[g]
  if g = s.controlGroup then (s, [])
  else match r.state with
    | .active => (putGroup g { r with idle := 0 } s, [])
    | .draining => if r.forced then (putGroup g { r with wakePending := true } s, []) else cancelDrain g s
    | .entering => (putGroup g { r with wakePending := true } s, [])
    | .asleep => (wakeStart g false s, [])
    | .waking | .scrubbing | .faulted => (s, [])

/-! ## Release (R76, R78, R79, R81) -/

/-- A WAITING entry is examined, and re-decided if it is due. -/
def examine (r : TrackRef) (s : State) : State × List Work :=
  match s.hold.find? r with
  | some e => if e.state = .waiting ∧ s.due e then redecide e true s else (s, [])
  | none => (s, [])

/-- The oldest READY entry moves into a free forward-queue place; its leaving examines the next entry of its requester,
and after that the moves go on while a place is free (R78, R79). -/
def moveReady (s : State) : State × List Work :=
  match s.hold.oldestReady? with
  | some e =>
    if 0 < s.dp.freePlaces then
      ((place e.ref e.group (leave e s)).modCount e.cls fun c => { c with forwarded := c.forwarded + 1 },
        [.oldest e.requester, .moveReady])
    else (s, [])
  | none => (s, [])

/-- One claim is carried out; what it gives rise to is returned. -/
def doWork (w : Work) (s : State) : State × List Work :=
  match w with
  | .wakeRequest g c => wakeRequest g c s
  | .preWake g => preWake g s
  | .examine r => examine r s
  | .oldest q =>
    match s.hold.oldest? q with
    | some e => examine e.ref s
    | none => (s, [])
  | .moveReady => moveReady s
  | .failHeld r =>
    match s.hold.find? r with
    | some e => answerHeld e .failed s
    | none => (s, [])

def Work.isMove : Work → Bool
  | .moveReady => true
  | _ => false

/-- New claims join the tail, and the moves of READY entries stand behind every other claim: all examinations of an event
are made in their order, and then the oldest READY entry of all requesters moves first (R20, R78, R81). -/
def queueWork (ws new : List Work) : List Work :=
  (ws ++ new).filter (fun w => !w.isMove) ++ (ws ++ new).filter Work.isMove

/-- The claims are carried out to the end. -/
def runWork : Nat → List Work → State → State
  | _, [], s => s
  | 0, _, s => s
  | n + 1, w :: ws, s => runWork n (queueWork ws (doWork w s).2) (doWork w s).1

/-- The claims of an event. -/
def claim (ws : List Work) (s : State) : State := runWork Config.claimFuel ws s

/-! ## A transaction is held (R73) -/

/-- The hold queue takes an entry: it joins the tail, WAITING; the counts go up, the peak follows (R85), the backpressure
test is applied, and an unforced drain of its group is cancelled (R7). -/
def holdEntry (e : HoldEntry) (s : State) : State × List Work :=
  let s := (s.modHold fun h =>
      { h with entries := h.entries ++ [e], peak := max h.peak (h.entries.length + 1) }).modReq e.requester
    fun q => { q with held := q.held + 1 }
  let s := backpressureTest s
  let s := s.setGroup e.group { s.groups[e.group] with held := s.groups[e.group].held + 1 }
  if s.groups[e.group].state = .draining ∧ s.groups[e.group].forced = false then cancelDrain e.group s else (s, [])

end Sys2Proof.Machine
end

