-- ==== Sys2Proof/Machine/Groups.lean ====
section
/-! DEFINITION. Machine/Groups.lean: the group controllers' state machine (chapter 1) and the scrub queue and engine that
it hands groups to (chapter 2.6, 2.7). -/

namespace Sys2Proof.Machine

/-- The cause of a group is cleared, after the notice that carried it was handed over (R4). -/
def clearCause (g : GroupNo) (s : State) : State := s.setGroup g { s.groups[g] with cause := none }

/-! ## Idle descent (R6, R7) -/

/-- A depth's threshold is nonzero and passed, and the depth is allowed (R6). -/
def GroupRec.qualifies (r : GroupRec) (d : Sleep) : Bool :=
  let t := match d with
    | .nap => r.tNap
    | .retain => r.tRetain
    | .off => r.tOff
  t != 0 && decide (t ≤ r.idle) && decide (d.toDepth.num ≤ r.deepest.num)

/-- The idle target of a group; none is D0 (R6). -/
def State.idleTarget (s : State) (g : GroupNo) : Option Sleep :=
  let r := s.groups[g]
  if r.qualifies .off && !s.hasKeep g then some .off
  else if r.qualifies .retain then some .retain
  else if r.qualifies .nap then some .nap
  else none

/-- A drain starts; with no transaction in flight ENTER is sent at once (R7, R8). -/
def startDrain (g : GroupNo) (d : Sleep) (forced : Bool) (cause : Option (BitVec 16)) (s : State) : State :=
  let r := s.groups[g]
  let s := putGroup g { r with state := .draining, forced := forced, target := some d, cause := cause } s
  if r.inFlight = 0 then sendEnter g d s else s

/-- The descent test (R6). -/
def descentTest (g : GroupNo) (s : State) : State :=
  let r := s.groups[g]
  match r.state, s.idleTarget g with
  | .active, some d => if r.held = 0 then startDrain g d false r.cause s else s
  | .asleep, some d => if r.depth.num < d.toDepth.num then sendEnter g d s else s
  | _, _ => s

/-- A forwarded transaction of the group has completed; a drain whose count falls to 0 sends ENTER (R7 to R9). -/
def lowerInFlight (g : GroupNo) (s : State) : State :=
  let r := s.groups[g]
  let s := s.setGroup g { r with inFlight := r.inFlight - 1 }
  match r.state, r.target with
  | .draining, some d => if r.inFlight - 1 = 0 then sendEnter g d s else s
  | _, _ => s

/-! ## ACTIVE and FAULTED (R20, R22) -/

/-- The group reaches ACTIVE at the end of a wake: GROUP_ACTIVE is raised, and the hold queue is told (R20). -/
def reachActive (g : GroupNo) (s : State) : State :=
  let r := s.groups[g]
  let s := putGroup g { r with state := .active, wakeSub := none, retryUsed := false, idle := 0 } s
  let s := clearCause g (raiseNotice (.groupActive g r.content r.cause) s)
  claim (s.toldActive g) s

/-- The entries of a group that a fault answers FAILED, in admission order (R81). -/
def State.failedBy (s : State) (g : GroupNo) : List Work :=
  (s.hold.entries.filter fun e => e.group == g && e.state == .waiting && (e.reason == .wake || e.reason == .order)).map
    fun e => .failHeld e.ref

/-- The group becomes FAULTED: GROUP_FAULT is raised, and the hold queue is told (R22, R81). -/
def fault (g : GroupNo) (why : FaultReason) (s : State) : State :=
  let r := s.groups[g]
  let s := putGroup g
    { r with
      state := .faulted, timer := none, target := none, wakeSub := none, forced := false, wakePending := false
      retryUsed := false, faultReason := some why, counters := { r.counters with faults := r.counters.faults + 1 } } s
  let s := clearCause g (raiseNotice (.groupFault g r.depth why r.cause) s)
  claim (s.failedBy g) s

/-! ## Scrub engine (R41 to R45) -/

/-- A scrub write: 256 bytes of the fill value, every byte enabled (R43, R192). -/
def scrubWrite (fill : BitVec 32) (a : Addr) : Tx :=
  { kind := .write, address := a, length := 16, data := (List.replicate 64 (le32 fill)).flatten
    enables := List.replicate 256 true }

/-- The engine builds the write at the cursor and offers it (R42, R43). -/
def scrubOffer (g : GroupNo) (i : RegionNo) (a : Addr) (s : State) : State :=
  (s.modScrub fun e =>
      { e with engine := .offered, cursorGroup := some g, cursorRegion := some i, cursorAddr := some a }).modDp
    fun d => { d with scrubPlace := some (scrubWrite (s.regions[i].fill.getD 0) a) }

/-- The first byte of a region. -/
def Region.firstByte (r : Region) : Addr := BitVec.ofNat 34 (r.basePage * 4096)

/-- The engine starts the head of the scrub queue, or is IDLE with its cursor absent when the queue is empty (R42). -/
def scrubStart (s : State) : State :=
  match s.scrub.queue.head? with
  | some g =>
    match s.firstRegion g .loseFill with
    | some i => scrubOffer g i s.regions[i].firstByte s
    | none => s
  | none => s.modScrub fun e => { e with engine := .idle, cursorGroup := none, cursorRegion := none, cursorAddr := none }

/-- A group joins the tail of the scrub queue; the engine starts it when the queue was empty (R41, R42). -/
def scrubJoin (g : GroupNo) (s : State) : State :=
  let t := s.modScrub fun e => { e with queue := e.queue ++ [g] }
  if s.scrub.queue.isEmpty then scrubStart t else t

/-- The head leaves the scrub queue and the engine goes on to the next (R44, R45). -/
def scrubNext (s : State) : State := scrubStart (s.modScrub fun e => { e with queue := e.queue.tail })

/-- The next higher-numbered valid LOSE_FILL region of the group (R44). -/
def State.nextRegion (s : State) (g : GroupNo) (i : RegionNo) : Option RegionNo :=
  allRegions.find? fun j => decide (i < j) && s.hasRegion g .loseFill j

/-- The outstanding scrub write has completed with OK (R44). -/
def scrubAdvance (s : State) : State :=
  match s.scrub.cursorGroup, s.scrub.cursorRegion, s.scrub.cursorAddr with
  | some g, some i, some a =>
    let r := s.regions[i]
    if a.toNat + 256 < (r.basePage + r.pageCount) * 4096 then scrubOffer g i (a + 256) s
    else match s.nextRegion g i with
      | some j => scrubOffer g j s.regions[j].firstByte s
      | none => scrubNext (reachActive g s)
  | _, _, _ => s

/-- The outstanding scrub write has completed with ERROR (R45). -/
def scrubFail (s : State) : State :=
  match s.scrub.cursorGroup with
  | some g => scrubNext (fault g .scrubFailed s)
  | none => s

/-! ## Answers on the group power channel (R11, R13 to R15, R18, R19) -/

/-- The entry counter of a depth goes up (R27). -/
def GroupCounters.entered (c : GroupCounters) : Sleep → GroupCounters
  | .nap => { c with toNap := c.toNap + 1 }
  | .retain => { c with toRetain := c.toRetain + 1 }
  | .off => { c with toOff := c.toOff + 1 }

/-- There is wake work for the group (R13). -/
def State.wakeWork (s : State) (g : GroupNo) : Bool := s.groups[g].wakePending || s.hasWakeEntry g

/-- DONE OK for an ENTER (R13). -/
def entryOk (g : GroupNo) (s : State) : State :=
  let r := s.groups[g]
  match r.target with
  | none => s
  | some d =>
    let s := putGroup g
      { r with
        state := .asleep, depth := d.toDepth, target := none, forced := false, timer := none
        counters := r.counters.entered d } s
    let s := clearCause g (raiseNotice (.groupAsleep g d.toDepth r.cause) s)
    if s.wakeWork g then wakeStart g false s else descentTest g (reportSleep g (some d) s)

/-- A depth as a sleep view. -/
def viewOf : Depth → Option Sleep
  | .d0 => none
  | .nap => some .nap
  | .retain => some .retain
  | .off => some .off

/-- The depth of the entry under way. -/
def GroupRec.entryDepth (r : GroupRec) : Depth :=
  match r.target with
  | some d => d.toDepth
  | none => r.depth

/-- DONE REFUSED for an ENTER (R14). From ASLEEP with wake work the supply line unit is told of the arrival at ASLEEP and
then of the wake start, as R14 and the table of R116 say, though R116 does not report a bounce as an arrival: the
model's choice (log entry 24). -/
def entryRefused (g : GroupNo) (s : State) : State :=
  let r := s.groups[g]
  let s := s.setGroup g { r with timer := none, target := none, forced := false, idle := 0 }
  let s := clearCause g (raiseNotice (.entryRefused g r.entryDepth r.cause) s)
  if r.depth = .d0 then
    let s := putGroup g { s.groups[g] with state := .active, wakePending := false } s
    claim (s.toldActive g) s
  else
    let s := reportSleep g (viewOf r.depth) (putGroup g { s.groups[g] with state := .asleep } s)
    if s.wakeWork g then wakeStart g false s else s

/-- DONE OK for an EXIT; after a cold exit the regions are marked and LOSE_FILL regions are scrubbed (R18, R36). -/
def exitOk (g : GroupNo) (s : State) : State :=
  let r := s.groups[g]
  if r.coldExit then
    let content := s.coldContent g
    let s := markLost g s
    if (s.firstRegion g .loseFill).isSome then
      scrubJoin g (putGroup g
        { r with state := .scrubbing, wakeSub := none, timer := none, depth := .d0, content := some content } s)
    else reachActive g (putGroup g { r with timer := none, depth := .d0, content := some content } s)
  else reachActive g (putGroup g { r with timer := none, depth := .d0, content := some .kept } s)

/-- The EXIT has failed: it is sent once again, and a second failure faults the group (R19). -/
def exitFail (g : GroupNo) (s : State) : State :=
  let r := s.groups[g]
  if r.retryUsed then fault g .exitFailed s
  else raiseNotice (.wakeRetry g r.depth r.cause) (sendExit g (s.setGroup g { r with retryUsed := true }))

/-- A DONE with nothing outstanding: the stray counter goes up and nothing else changes (R11). -/
def strayDone (g : GroupNo) (s : State) : State :=
  let r := s.groups[g]
  s.setGroup g { r with counters := { r.counters with strays := r.counters.strays + 1 } }

/-- A DONE message arrives for a group (R10, R11). -/
def takeDone (g : GroupNo) (result : DoneResult) (s : State) : State :=
  let r := s.groups[g]
  match r.state, r.wakeSub with
  | .entering, _ =>
    match result with
    | .ok => entryOk g s
    | .refused => entryRefused g s
    | .error => fault g .entryError s
  | .waking, some .exiting =>
    match result with
    | .ok => exitOk g s
    | .refused | .error => exitFail g s
  | _, _ => strayDone g s

/-! ## Timers of a group (R15, R19, R28; log entry 7) -/

/-- The entry timeout expires. -/
def entryExpiry (g : GroupNo) (s : State) : State :=
  if s.groups[g].state = .entering ∧ s.groups[g].timer = some 0 then fault g .entryTimeout s else s

/-- The exit timeout expires. -/
def exitExpiry (g : GroupNo) (s : State) : State :=
  if s.groups[g].state = .waking ∧ s.groups[g].wakeSub = some .exiting ∧ s.groups[g].timer = some 0 then exitFail g s
  else s

/-- The start settle of a warm reset expires: the group goes on as at the end of the LINES wait. -/
def startSettleEnd (g : GroupNo) (s : State) : State :=
  if s.groups[g].state = .waking ∧ s.groups[g].wakeSub = some .lines ∧ s.groups[g].timer = some 0 then
    startLinesWait g (s.setGroup g { s.groups[g] with timer := none })
  else s

end Sys2Proof.Machine
end

