-- ==== Sys2Proof/Machine/Classify.lean ====
section
/-! DEFINITION. Machine/Classify.lean: the activity classifier (chapter 5.1 to 5.3). -/

namespace Sys2Proof.Machine

/-- Data byte k as the data test sees it: zero where its enable is 0 (R90). -/
def Tx.testByte (t : Tx) (k : Nat) : Byte := if t.enables.getD k false then t.data.getD k 0 else 0

/-- The data test (R90); a READ never satisfies it. -/
def Tx.dataTest (t : Tx) (pattern mask : Vector Byte 8) : Bool :=
  t.kind == .write
    && (List.finRange 8).all fun k => (t.testByte k.val ^^^ pattern[k]) &&& mask[k] == 0#8

def KindTest.holds : KindTest → Kind → Bool
  | .any, _ => true
  | .read, k => k == .read
  | .write, k => k == .write

/-- An element matches a transaction (R89); bit n of its requester mask stands for requester n (log entry 26). -/
def Element.hits (e : Element) (q : ReqNo) (t : Tx) : Bool :=
  e.enabled && e.mask.getLsbD q.val && e.kindTest.holds t.kind
    && (match e.window with
        | none => true
        | some (lo, hi) => decide (lo ≤ pageOf t.address) && decide (pageOf t.address ≤ hi))
    && (match e.dataTest with
        | none => true
        | some (pattern, mask) => t.dataTest pattern mask)

/-- A term is true for a transaction (R92). -/
def Term.holds (x : Term) (p : Programme) (q : ReqNo) (t : Tx) : Bool :=
  x.enabled && p.elements[x.a].hits q t
    && (match x.b with
        | none => true
        | some b => if x.bNegated then !p.elements[b].hits q t else p.elements[b].hits q t)

/-- A class among C1 to C7 is true for a transaction (R92). -/
def Programme.holds (p : Programme) (q : ReqNo) (t : Tx) (c : ClassNo) : Bool :=
  p.classes[c].terms.toList.any fun x => x.holds p q t

/-- The class of a transaction: the lowest true one of C1 to C7, else C0 (R93). -/
def Programme.classify (p : Programme) (q : ReqNo) (t : Tx) : ClassNo :=
  (([1, 2, 3, 4, 5, 6, 7] : List ClassNo).find? (p.holds q t)).getD 0

end Sys2Proof.Machine
end

