-- ==== Sys2Proof/Machine/Commands.lean ====
section
/-! DEFINITION. Machine/Commands.lean: the commands of chapter 10 but SNAPSHOT: the checks in the order of R165, the claim,
and the result with its detail word (R164). Each is given the command's sequence and the state at its execution event. -/

namespace Sys2Proof.Machine

/-- What an executed command leaves: the state, the result and the detail word. -/
structure Verdict where
  state : State
  result : Result
  detail : BitVec 32
  deriving DecidableEq, Repr

/-- The command was carried out, with detail 0. -/
def okay (s : State) : Verdict := ⟨s, .ok, 0⟩

/-- A refusal changes no state (R163). -/
def refuse (r : Result) (detail : Nat) (s : State) : Verdict := ⟨s, r, BitVec.ofNat 32 detail⟩

/-- Argument n is the first that fails (R164). -/
def badArgument (n : Nat) (s : State) : Verdict := refuse .badArgument n s

/-- GROUP_BUSY carries the group in byte 0 and its state code in byte 1 (R164, 12.4). -/
def groupBusy (g : GroupNo) (s : State) : Verdict :=
  ⟨s, .groupBusy, (groupStateCode s.groups[g].state ++ byteOf g.val).setWidth 32⟩

/-- NOP (R165). -/
def cmdNop (s : State) : Verdict := okay s

/-! ## Region commands (R166 to R168) -/

/-- Two page ranges share a page. -/
def pagesMeet (base1 count1 base2 count2 : Nat) : Bool :=
  decide (base1 < base2 + count2) && decide (base2 < base1 + count1)

/-- The lowest-numbered valid region, `index` left out, that shares a page with the range (R166). -/
def State.overlapped (s : State) (index : RegionNo) (base count : Nat) : Option RegionNo :=
  allRegions.find? fun i =>
    i != index && s.regions[i].valid && pagesMeet base count s.regions[i].basePage s.regions[i].pageCount

/-- The detail of CONFLICT; none when the range shares no page (R164, R166). -/
def State.conflict (s : State) (index : RegionNo) (base count : Nat) : Option Nat :=
  match s.overlapped index base count with
  | some i => some i.val
  | none => if pagesMeet base count (controlPage s.straps) 2 then some 48 else none

/-- The group that keeps SET_REGION from acting (R166): the old group while it is SCRUBBING, else the new group while it is
not ACTIVE. -/
def State.regionBusy (s : State) (index : RegionNo) (new : GroupNo) : Option GroupNo :=
  let old := if s.regions[index].valid then groupOfPage s.straps s.regions[index].basePage else none
  match old with
  | some o =>
    if s.groups[o].state = .scrubbing then some o else if s.groups[new].state ≠ .active then some new else none
  | none => if s.groups[new].state ≠ .active then some new else none

/-- The state checks and the claim of SET_REGION, its arguments read (R166, R167). -/
def writeRegion (index : RegionNo) (group : GroupNo) (r : Region) (s : State) : Verdict :=
  match s.conflict index r.basePage r.pageCount with
  | some d => refuse .conflict d s
  | none =>
    match s.regionBusy index group with
    | some g => groupBusy g s
    | none =>
      if r.policy = .keep ∧ s.groups[group].deepest = .off then refuse .contentKept index.val s
      else okay (s.setRegion index r)

/-- SET_REGION (R166, R167). -/
def cmdSetRegion (index policy readAllowed writeAllowed : Byte) (basePage pageCount fill : BitVec 32)
    (mask : BitVec 16) (s : State) : Verdict :=
  match index? 48 index with
  | none => badArgument 1 s
  | some i =>
  match groupOfPage s.straps basePage.toNat with
  | none => badArgument 2 s
  | some g =>
  if ¬ (1 ≤ pageCount.toNat ∧ pageCount.toNat ≤ 262144
      ∧ groupOfPage s.straps (basePage.toNat + pageCount.toNat - 1) = some g) then badArgument 3 s
  else match policy? policy with
  | none => badArgument 4 s
  | some k =>
  match flag? readAllowed, flag? writeAllowed with
  | some rd, some wr =>
    writeRegion i g
      { valid := true, basePage := basePage.toNat, pageCount := pageCount.toNat, policy := k
        fill := if k = .loseFill then some fill else none
        mask := mask, readAllowed := rd, writeAllowed := wr, lost := false } s
  | _, _ => badArgument 7 s

/-- CLEAR_REGION (R168). -/
def cmdClearRegion (index : Byte) (s : State) : Verdict :=
  match index? 48 index with
  | none => badArgument 1 s
  | some i =>
    let r := s.regions[i]
    let cleared := okay (s.setRegion i { r with valid := false, lost := false })
    if r.valid then
      match groupOfPage s.straps r.basePage with
      | some g => if s.groups[g].state = .scrubbing then groupBusy g s else cleared
      | none => cleared
    else cleared

/-- CLEAR_LOST (R168). -/
def cmdClearLost (index : Byte) (s : State) : Verdict :=
  match index? 48 index with
  | none => badArgument 1 s
  | some i =>
    if s.regions[i].valid then okay (s.setRegion i { s.regions[i] with lost := false }) else badArgument 1 s

/-! ## Group commands (R169 to R172) -/

/-- SET_GROUP_POLICY (R169). -/
def cmdSetGroupPolicy (group deepest : Byte) (tNap tRetain tOff : BitVec 32) (s : State) : Verdict :=
  match index? 16 group with
  | none => badArgument 1 s
  | some g =>
  match depth? deepest with
  | none => badArgument 2 s
  | some d =>
  if Config.idleLimit < tNap.toNat then badArgument 3 s
  else if Config.idleLimit < tRetain.toNat then badArgument 4 s
  else if Config.idleLimit < tOff.toNat ∨ thresholdsOrdered tNap.toNat tRetain.toNat tOff.toNat = false then
    badArgument 5 s
  else if g = s.controlGroup ∧ d ≠ .d0 then refuse .groupPinned g.val s
  else match (if d = .off then s.firstRegion g .keep else none) with
  | some i => refuse .contentKept i.val s
  | none =>
    okay (s.setGroup g
      { s.groups[g] with deepest := d, tNap := tNap.toNat, tRetain := tRetain.toNat, tOff := tOff.toNat })

/-- FORCE_DEPTH (R170). -/
def cmdForceDepth (group depth : Byte) (seq : BitVec 16) (s : State) : Verdict :=
  match index? 16 group with
  | none => badArgument 1 s
  | some g =>
  match sleep? depth with
  | none => badArgument 2 s
  | some d =>
  if g = s.controlGroup then refuse .groupPinned g.val s
  else if s.groups[g].state ≠ .active ∨ 0 < s.groups[g].held then groupBusy g s
  else match (if d = .off then s.firstRegion g .keep else none) with
  | some i => refuse .contentKept i.val s
  | none => ⟨startDrain g d true (some seq) s, .accepted, BitVec.ofNat 32 g.val⟩

/-- The pre-wakes of WAKE_GROUPS, in ascending group number (log entry 20), with the mask of the wakes they start. -/
def wakeEach : List GroupNo → BitVec 32 → State → State × BitVec 32
  | [], started, s => (s, started)
  | g :: gs, started, s =>
    wakeEach gs
      (if g ≠ s.controlGroup ∧ s.groups[g].state = .asleep then started ||| (1#32 <<< g.val) else started)
      (claim [.preWake g] s)

/-- The groups of a mask, bit n for group n (log entry 26), in ascending number. -/
def groupsOf (mask : BitVec 16) : List GroupNo := allGroups.filter fun g => mask.getLsbD g.val

/-- WAKE_GROUPS (R171). -/
def cmdWakeGroups (mask : BitVec 16) (s : State) : Verdict :=
  let r := wakeEach (groupsOf mask) 0 s
  ⟨r.1, .ok, r.2⟩

/-- RECOVER_GROUP (R172, R23). -/
def cmdRecoverGroup (group : Byte) (seq : BitVec 16) (s : State) : Verdict :=
  match index? 16 group with
  | none => badArgument 1 s
  | some g =>
    if s.groups[g].state ≠ .faulted then groupBusy g s
    else ⟨wakeStart g true (s.setGroup g { s.groups[g] with faultReason := none, cause := some seq }), .accepted,
      BitVec.ofNat 32 g.val⟩

/-! ## Line commands (R174, R175) -/

/-- SET_LINE (R174, R122). -/
def cmdSetLine (line threshold offLevel : Byte) (deps settle : BitVec 16) (s : State) : Verdict :=
  match index? 8 line with
  | none => badArgument 1 s
  | some n =>
  match threshold? threshold with
  | none => badArgument 3 s
  | some t =>
  match level? offLevel with
  | none => badArgument 4 s
  | some lv =>
  match within 1 4095 settle.toNat with
  | none => badArgument 5 s
  | some st =>
    let l := s.slu.lines[n]
    if l.state = .settling then refuse .lineBusy n.val s
    else okay (examineWaiting (evaluateLine n
      (putLine n { l with deps := deps, threshold := t, offLevel := lv, settle := st } s)))

/-- FORCE_LINE (R174, R123). -/
def cmdForceLine (line action : Byte) (s : State) : Verdict :=
  match index? 8 line with
  | none => badArgument 1 s
  | some n =>
  match flag? action with
  | none => badArgument 2 s
  | some on =>
    let t := evaluateLine n (s.setLine n { s.slu.lines[n] with forced := on })
    ⟨t, .ok, (lineStateCode t.slu.lines[n].state).setWidth 32⟩

/-- SET_WAKE_LINE (R175, R131). -/
def cmdSetWakeLine (line mode count : Byte) (groups : BitVec 16) (s : State) : Verdict :=
  match index? 4 line with
  | none => badArgument 1 s
  | some n =>
  match wakeMode? mode with
  | none => badArgument 2 s
  | some m =>
  match within 1 15 count.toNat with
  | none => badArgument 3 s
  | some c =>
    okay (s.setWakeLine n
      { s.wlu[n] with mode := m, count := c, groups := groups, armed := true, highRun := 0, lowRun := 0 })

/-! ## Classifier commands (R176, R177) -/

/-- SET_ELEMENT (R176). -/
def cmdSetElement (index enabled kindTest anyPage : Byte) (lowPage highPage : BitVec 32) (hasData : Byte)
    (pattern mask : Vector Byte 8) (requesters : BitVec 16) (s : State) : Verdict :=
  match index? 24 index with
  | none => badArgument 1 s
  | some i =>
  match flag? enabled with
  | none => badArgument 2 s
  | some en =>
  match kindTest? kindTest with
  | none => badArgument 4 s
  | some k =>
  match window? anyPage lowPage highPage with
  | none => badArgument 5 s
  | some w =>
  match dataTest? hasData pattern mask with
  | none => badArgument 6 s
  | some dt =>
    let e : Element := { enabled := en, mask := requesters, kindTest := k, window := w, dataTest := dt }
    okay (s.modProgramme fun p => { p with elements := p.elements.set i e })

/-- The terms of SET_CLASS, or the number of the first that fails (R177). -/
def terms? (term0 term1 term2 term3 : TermArg) : Except Nat (Vector Term 4) :=
  match term? term0 with
  | none => .error 4
  | some t0 =>
  match term? term1 with
  | none => .error 5
  | some t1 =>
  match term? term2 with
  | none => .error 6
  | some t2 =>
  match term? term3 with
  | none => .error 7
  | some t3 => .ok #v[t0, t1, t2, t3]

/-- SET_CLASS (R177); for C0 the terms are neither read nor kept (R91). -/
def cmdSetClass (cls activity wake trap : Byte) (prewake : BitVec 16) (term0 term1 term2 term3 : TermArg)
    (s : State) : Verdict :=
  match index? 8 cls with
  | none => badArgument 1 s
  | some c =>
  match flag? activity, flag? wake, flag? trap with
  | some a, some w, some t =>
    match (if c = 0 then .ok (Vector.replicate 4 {}) else terms? term0 term1 term2 term3) with
    | .error n => badArgument n s
    | .ok ts =>
      let k : ClassRec := { activity := a, wake := w, trap := t, prewake := prewake, terms := ts }
      okay (s.modProgramme fun p => { p with classes := p.classes.set c k })
  | _, _, _ => badArgument 2 s

/-! ## Requester and queue commands (R178 to R180) -/

/-- A mode change acts on the hold queue (R70). -/
def modeChange (q : ReqNo) (old new : Mode) (s : State) : State :=
  match old, new with
  | .ordered, .relaxed =>
    claim ((s.hold.entries.filter fun e => e.requester == q && e.state == .waiting).map fun e => .examine e.ref) s
  | .relaxed, .ordered =>
    s.modHold fun h =>
      { h with entries := h.entries.map fun e =>
          if e.requester = q ∧ e.state = .ready ∧ ¬ h.isOldest e then { e with state := .waiting, reason := .order }
          else e }
  | _, _ => s

/-- SET_REQUESTER (R178, R69). -/
def cmdSetRequester (requester enabled mode quota control : Byte) (s : State) : Verdict :=
  match index? 16 requester with
  | none => badArgument 1 s
  | some q =>
  match flag? enabled with
  | none => badArgument 2 s
  | some en =>
  match mode? mode with
  | none => badArgument 3 s
  | some m =>
  match within 1 32 quota.toNat with
  | none => badArgument 4 s
  | some n =>
  match flag? control with
  | none => badArgument 5 s
  | some ct =>
    let t := s.modReq q fun r => { r with enabled := en, mode := m, quota := n, control := ct }
    if allRequesters.any fun p => t.requesters[p].enabled && t.requesters[p].control then
      okay (modeChange q s.requesters[q].mode m t)
    else refuse .noControlLeft q.val s

/-- A trap or a re-trap is taken on an entry of the hold queue (R106, R111): its requester is halted, and TRAP_HIT is
raised. -/
def takeTrap (e : HoldEntry) (cause : Option (BitVec 16)) (s : State) : State :=
  raiseNotice (.trapHit e.requester e.group e.ref.tag e.tx.kind e.cls e.tx.address cause)
    ((setReason e.ref .trap s).modReq e.requester fun r =>
      { r with halted := true, trapped := some e.ref, trapCount := r.trapCount + 1 })

/-- The walk of a requester's HALT entries (R111); the answer says whether it took a re-trap. -/
def walkHalt (seq : BitVec 16) : List TrackRef → State → State × Bool
  | [], s => (s, false)
  | r :: rs, s =>
    match s.hold.find? r with
    | some e =>
      if (s.cls e.cls).trap then (takeTrap e (some seq) s, true)
      else walkHalt seq rs (claim (redecide e true s).2 (redecide e true s).1)
    | none => walkHalt seq rs s

/-- The HALT entries of a requester, in admission order. -/
def HoldQueue.haltRefs (h : HoldQueue) (q : ReqNo) : List TrackRef :=
  (h.entries.filter fun e => e.requester == q && e.state == .waiting && e.reason == .halt).map HoldEntry.ref

/-- The trapped entry is disposed of (R110). -/
def disposeTrapped (q : ReqNo) (deny : Bool) (s : State) : State :=
  match s.requesters[q].trapped.bind s.hold.find? with
  | some e =>
    let r := if deny then answerHeld e .denied s else redecide e false s
    claim r.2 r.1
  | none => s

/-- RELEASE_TRAP (R179, R110, R111). -/
def cmdReleaseTrap (requester disposition : Byte) (seq : BitVec 16) (s : State) : Verdict :=
  match index? 16 requester with
  | none => badArgument 1 s
  | some q =>
  match flag? disposition with
  | none => badArgument 2 s
  | some deny =>
    if s.requesters[q].halted = false then refuse .notHalted q.val s
    else
      let t := (disposeTrapped q deny s).modReq q fun r => { r with halted := false, trapped := none }
      let w := walkHalt seq (t.hold.haltRefs q) t
      ⟨w.1, .ok, if w.2 then 1 else 0⟩

/-- SET_QUEUE_LIMITS (R180, R83). -/
def cmdSetQueueLimits (high low : Byte) (s : State) : Verdict :=
  if ¬ (2 ≤ high.toNat ∧ high.toNat ≤ 64) then badArgument 1 s
  else if ¬ (1 ≤ low.toNat ∧ low.toNat < high.toNat) then badArgument 2 s
  else
    let t := backpressureTest (s.modHold fun h => { h with high := high.toNat, low := low.toNat })
    ⟨t, .ok, if t.hold.backpressure then 1 else 0⟩

/-- SET_TIMEOUTS (R180). -/
def cmdSetTimeouts (entry nap retain off : BitVec 16) (s : State) : Verdict :=
  if entry = 0 then badArgument 1 s
  else if nap = 0 then badArgument 2 s
  else if retain = 0 then badArgument 3 s
  else if off = 0 then badArgument 4 s
  else okay (s.setTimeouts
    { entry := entry.toNat, exitNap := nap.toNat, exitRetain := retain.toNat, exitOff := off.toNat })

end Sys2Proof.Machine
end

