-- ==== Sys2Proof/Machine/CommandProc.lean ====
section
/-! DEFINITION. Machine/CommandProc.lean: the command cycle (chapter 9.7), SNAPSHOT, the watched words, ERROR_STOP and the
control restart. -/

namespace Sys2Proof.Machine

/-! ## The fetch (R148, R154) -/

/-- The mark that covers the command at the command consumer: the oldest whose value differs from it (R148). -/
def CmdProc.covering (c : CmdProc) : Option Mark := c.marks.find? fun m => m.value != c.cmdConsumer

/-- The READ of the command slot at the command consumer (R154). -/
def CmdProc.fetchTx (c : CmdProc) (p : Straps) : Tx :=
  { kind := .read, address := controlAddr p (0x400 + 64 * (c.cmdConsumer.toNat % Config.commandSlots)), length := 4
    data := [], enables := [] }

/-- No outstanding control write has a sequence number less than the barrier (R154). -/
def CmdProc.barrierMet (c : CmdProc) (barrier : BitVec 32) : Bool := c.outstanding.all fun q => !seqLess q barrier

/-- In FETCHING the fetch is set in its place when the barrier is met, the place is empty and no fetch is downstream. -/
def offerFetch (s : State) : State :=
  match s.cp.state, s.cp.covering with
  | .fetching, some m =>
    if s.cp.barrierMet m.seq ∧ s.dp.fetchPlace = none ∧ s.dp.isDown .cpFetch = false then
      s.modDp fun d => { d with fetchPlace := some (s.cp.fetchTx s.straps) }
    else s
  | _, _ => s

/-- The fetch test: in IDLE with a command pending the CP enters FETCHING (R154). -/
def fetchTest (s : State) : State :=
  match s.cp.covering with
  | some m =>
    if s.cp.state = .idle ∧ s.cp.pendingCommands ≠ 0 then
      offerFetch (setCpState .fetching
        (s.modCp fun c => { c with inHand := some { seq := c.cmdConsumer, issuer := m.requester } }))
    else s
  | none => s

/-! ## SNAPSHOT (R181, R190, R191) -/

/-- The statistics record as it stands. -/
def State.statsRecord (s : State) (seq : BitVec 16) (clear : Bool) : List Byte :=
  statsImage s.partTime seq s.cp.epoch clear s.hold.peak s.hold.entries.length s.ac.counters s.groups s.requesters
    s.au.controlAdmitted s.au.controlDenied

/-- Every counter becomes 0 and the peak the present occupancy (R191). -/
def clearCounters (s : State) : State :=
  { s with
    ac := { s.ac with counters := Vector.replicate 8 {} }
    groups := s.groups.map fun r => { r with counters := {} }
    requesters := s.requesters.map fun r => { r with admitted := 0, denied := 0, trapCount := 0 }
    au := { s.au with controlAdmitted := 0, controlDenied := 0 }
    hold := { s.hold with peak := s.hold.entries.length } }

/-- A payload write at an offset of the payload area. -/
def payloadWrite (p : Straps) (image : List Byte) (offset size : Nat) : Tx :=
  blockWrite p (0x1400 + offset) ((image.drop offset).take size) (List.replicate size true)

/-- The payload writes of a statistics record join the write list, in ascending address (R190). -/
def appendPayload (image : List Byte) (s : State) : State :=
  let w := fun last offset size s => appendWrite (.payload last) (some (payloadWrite s.straps image offset size)) s
  w true 768 64 (w false 512 256 (w false 256 256 (w false 0 256 s)))

/-- SNAPSHOT copies, clears where asked, and appends its payload writes; it ends when the last of them completes. -/
def startSnapshot (seq : BitVec 16) (clear : Bool) (s : State) : State :=
  let image := s.statsRecord seq clear
  let s := if clear then clearCounters s else s
  appendPayload image (s.modCp fun c => { c with inHand := c.inHand.map fun h => { h with copyTime := some s.partTime } })

/-! ## Execution (R155, R163) -/

/-- The end of execution: the completion report is built and asks for a slot. -/
def endExecution (v : Verdict) : State :=
  let s := v.state
  match s.cp.inHand with
  | some h =>
    match h.fetched with
    | some (tag, body) =>
      let report : CompletionReport :=
        { kind := body.kind, slotTag := tag, seq := h.seq, issuer := h.issuer, result := v.result, detail := v.detail
          time := s.partTime }
      postCompletion report (s.modCp fun c => { c with inHand := some { h with completion := some report } })
    | none => s
  | none => s

/-- What the checks and the claim of a command give at its execution event (R163, R165); none is a SNAPSHOT, whose
execution goes on until its last payload write has completed. -/
def verdict (seq : BitVec 16) (body : CmdBody) (s : State) : Option Verdict :=
  match body with
  | .nop => some (cmdNop s)
  | .setRegion i k rd wr base count fill mask => some (cmdSetRegion i k rd wr base count fill mask s)
  | .clearRegion i => some (cmdClearRegion i s)
  | .clearLost i => some (cmdClearLost i s)
  | .setGroupPolicy g d n r o => some (cmdSetGroupPolicy g d n r o s)
  | .forceDepth g d => some (cmdForceDepth g d seq s)
  | .wakeGroups m => some (cmdWakeGroups m s)
  | .recoverGroup g => some (cmdRecoverGroup g seq s)
  | .setLine n t lv deps st => some (cmdSetLine n t lv deps st s)
  | .forceLine n a => some (cmdForceLine n a s)
  | .setWakeLine n m c gs => some (cmdSetWakeLine n m c gs s)
  | .setElement i en k any lo hi hd pat mask reqs => some (cmdSetElement i en k any lo hi hd pat mask reqs s)
  | .setClass c a w t pw t0 t1 t2 t3 => some (cmdSetClass c a w t pw t0 t1 t2 t3 s)
  | .setRequester q en m n ct => some (cmdSetRequester q en m n ct s)
  | .releaseTrap q d => some (cmdReleaseTrap q d seq s)
  | .setQueueLimits h l => some (cmdSetQueueLimits h l s)
  | .setTimeouts e n r o => some (cmdSetTimeouts e n r o s)
  | .snapshot c =>
    match flag? c with
    | some _ => none
    | none => some (badArgument 1 s)
  | .unknown k => some (refuse .badKind k.toNat s)

/-- The clear flag of a SNAPSHOT. -/
def snapshotClears : CmdBody → Bool
  | .snapshot c => c == 1
  | _ => false

/-- A command is executed. -/
def runCommand (seq : BitVec 16) (body : CmdBody) (s : State) : State :=
  match verdict seq body s with
  | some v => endExecution v
  | none => startSnapshot seq (snapshotClears body) s

/-- The slot of the command in hand has been read: the CP enters EXECUTING (R154). -/
def beginExecution (h : InHand) (tag : BitVec 16) (body : CmdBody) (s : State) : State :=
  setCpState .executing (s.modCp fun c => { c with inHand := some { h with fetched := some (tag, body) } })

/-- A fetch has completed with OK (R154, R159): a stale one is discarded; one the CP waits for is executed at this event; one
that was downstream at an entry to ERROR_STOP is discarded (R157). -/
def fetchOk (tag : BitVec 16) (body : CmdBody) (s : State) : State :=
  if s.cp.fetchStale then offerFetch (s.modCp fun c => { c with fetchStale := false })
  else match s.cp.state, s.cp.inHand with
    | .fetching, some h => runCommand h.seq body (beginExecution h tag body s)
    | _, _ => s

/-! ## ERROR_STOP (R157) -/

/-- The CP enters ERROR_STOP. A CP write still downstream has left the write list (R159). -/
def enterErrorStop (s : State) : State :=
  (s.modDp fun d => { d with writePlace := none, fetchPlace := none }).modCp fun c =>
    { c with state := .errorStop, writeList := [], reMirror := true, orphan := s.dp.isDown .cpWrite }

/-- A fetch has completed with ERROR (R154, R159). -/
def fetchError (s : State) : State := enterErrorStop (s.modCp fun c => { c with fetchStale := false })

/-! ## Completions of CP writes (R150 to R153, R155, R158, R159) -/

/-- The write at the head of the list has completed with OK and has left the list. -/
def writeDone (k : WriteKind) (s : State) : State :=
  match k with
  | .initial i => if i = 3 then s.modCp fun c => { c with headerDone := true } else s
  | .restart i v => if i = 0 then s.modCp fun c => { c with published := v } else s
  | .publish v _ => s.modCp fun c => { c with published := v }
  | .mirror => if s.cp.reMirror then appendWrite .mirror none (s.modCp fun c => { c with reMirror := false }) else s
  | .payload true =>
    match s.cp.state, s.cp.inHand.bind InHand.copyTime with
    | .executing, some t => endExecution ⟨s, .ok, t⟩
    | _, _ => s
  | .payload false | .record | .cmdConsumer => s

def WriteKind.isInitial : WriteKind → Bool
  | .initial _ => true
  | _ => false

/-- A CP write has completed. One that had left the list is discarded but for its ERROR (R159). -/
def cpWriteEnd (result : MemResult) (s : State) : State :=
  if s.cp.orphan then
    let s := s.modCp fun c => { c with orphan := false }
    match result with
    | .ok => s
    | .error => enterErrorStop s
  else match s.cp.writeList with
    | [] => s
    | w :: ws =>
      match result with
      | .ok => writeDone w.kind (s.modCp fun c => { c with writeList := ws })
      | .error => enterErrorStop (s.modCp fun c => { c with headerDone := c.headerDone || w.kind.isInitial })

/-- POSTING ends when the completion's REPORT_PRODUCER write is taken (R156). -/
def postingEnd (s : State) : State :=
  let i := s.cp.cmdConsumer + 1
  let s := s.modCp fun c =>
    { c with
      cmdConsumer := i, inHand := none
      marks := match c.marks with
        | m :: ms => if m.value = i then ms else m :: ms
        | [] => [] }
  fetchTest (setCpState .idle (appendBeat .cmdConsumer 0x10 (le16 i) s))

/-! ## Control restart (R158) -/

/-- The restart rewrite: the header with the bytes of the software-owned words disabled (R193); what it carries in those
bytes is the free value of log entry 1. -/
def appendRewrite (s : State) : State :=
  let image := headerImage s.cp.cmdConsumer s.cp.reportProducer s.cp.epoch
    (statusImage s.hold.backpressure s.cp.state s.groups (lineCodes s.slu.lines))
  let data := (List.range 16).map fun o =>
    if softwareWordByte o then Config.disabledByte s.freeDraws o else image.getD o 0
  let enables := (List.range 16).map fun o => !softwareWordByte o
  let writes := headerWrites s.straps (fun i => .restart i s.cp.reportProducer) (data ++ image.drop 16)
    (enables ++ List.replicate 1008 true)
  (s.modCp fun c => { c with writeList := c.writeList ++ writes }).setFreeDraws (s.freeDraws + 1)

/-- A write kept across a restart belongs to no command any more (log entry 17). -/
def CpWrite.disowned (w : CpWrite) : CpWrite :=
  match w.kind with
  | .payload _ => { w with kind := .payload false }
  | _ => w

/-- The control restart of R158, its steps in their order. -/
def controlRestart (s : State) : State :=
  let writeDown := s.dp.isDown .cpWrite && !s.cp.orphan
  let dropped := s.cp.producerShadow - s.cp.cmdConsumer
  let s := (s.modDp fun d => { d with writePlace := none, fetchPlace := none }).modCp fun c =>
    { c with
      inHand := none
      fetchStale := s.dp.isDown .cpFetch
      writeList := if writeDown then (c.writeList.take 1).map CpWrite.disowned else []
      reMirror := false
      cmdConsumer := c.producerShadow, reportProducer := c.consumerShadow, marks := []
      epoch := c.epoch + 1 }
  let s := appendRewrite (setCpState .idle s)
  let s := assignReport (.notice (.restartDone dropped s.cp.epoch) s.partTime) false s
  fetchTest (overflowTest s)

/-! ## Watched words (R147 to R149) -/

/-- The CMD_PRODUCER value breaks the ring protocol (R149). -/
def CmdProc.producerBreaks (c : CmdProc) (v : BitVec 16) : Bool :=
  decide (32 < (v - c.cmdConsumer).toNat)
    || decide ((v - c.cmdConsumer).toNat < (c.producerShadow - c.cmdConsumer).toNat)

/-- The REPORT_CONSUMER value breaks the ring protocol (R149). -/
def CmdProc.consumerBreaks (c : CmdProc) (v : BitVec 16) : Bool :=
  decide ((c.reportProducer - c.consumerShadow).toNat < (v - c.consumerShadow).toNat)

/-- A new value of CMD_PRODUCER. -/
def producerWord (q : ReqNo) (seq : BitVec 32) (v : BitVec 16) (s : State) : State :=
  if s.cp.producerBreaks v then raiseNotice (.ringProtocol false v) s
  else if v = s.cp.producerShadow then s
  else fetchTest (s.modCp fun c =>
    { c with producerShadow := v, marks := c.marks ++ [{ value := v, requester := q, seq := seq }] })

/-- The consumer shadow has changed: a completion that waits is posted first, then the overflow test is applied (R156,
R186, R188). -/
def consumerChanged (s : State) : State :=
  match s.cp.state, s.cp.inHand.bind InHand.completion with
  | .waitSpace, some r => overflowTest (postCompletion r s)
  | _, _ => overflowTest s

/-- A new value of REPORT_CONSUMER. -/
def consumerWord (v : BitVec 16) (s : State) : State :=
  if s.cp.consumerBreaks v then raiseNotice (.ringProtocol true v) s
  else if v = s.cp.consumerShadow then s
  else consumerChanged (s.modCp fun c => { c with consumerShadow := v })

/-- A new value of IRQ_ENABLE. -/
def irqWord (v : BitVec 32) (s : State) : State := s.modCp fun c => { c with irqEnable := v }

/-- A new value of RESTART_REQUEST; a nonzero one makes a control restart, and the shadow returns to 0. -/
def restartWord (v : BitVec 32) (s : State) : State :=
  if v = 0 then s.modCp fun c => { c with restartShadow := 0 }
  else (controlRestart (s.modCp fun c => { c with restartShadow := v })).modCp fun c => { c with restartShadow := 0 }

/-- A forwarded control-block WRITE is passed to the CP: its requester, its sequence number and its enabled bytes (R57,
R147). -/
def controlWrite (q : ReqNo) (seq : BitVec 32) (bytes : List (Nat × Byte)) (s : State) : State :=
  let s := s.modCp fun c => { c with outstanding := c.outstanding ++ [seq] }
  let s := if touches bytes 0 2 then producerWord q seq (mergeWord16 bytes 0 s.cp.producerShadow) s else s
  let s := if touches bytes 4 2 then consumerWord (mergeWord16 bytes 4 s.cp.consumerShadow) s else s
  let s := if touches bytes 8 4 then irqWord (mergeWord32 bytes 8 s.cp.irqEnable) s else s
  if touches bytes 12 4 then restartWord (mergeWord32 bytes 12 s.cp.restartShadow) s else s

/-- A control-block access has completed downstream: a write leaves the outstanding ones, and a waiting fetch is offered
where its barrier is now met (R140, R148, R154). -/
def controlDone (seq : BitVec 32) (s : State) : State :=
  offerFetch (s.modCp fun c => { c with outstanding := c.outstanding.filter fun q => q != seq })

end Sys2Proof.Machine
end

