-- ==== Sys2Proof/Machine/Admission.lean ====
section
/-! DEFINITION. Machine/Admission.lean: the upstream port and the admission unit (chapter 3), the admission decision (R74)
and the order of the claims of one admission (R98). -/

namespace Sys2Proof.Machine

/-! ## The decision (R74) -/

/-- An outcome of the admission decision. -/
inductive Decision where
  | forward
  | hold (reason : HoldReason) (wake : Bool)
  | answer (status : Status)
  deriving DecidableEq, Repr

/-- The admission decision (R74). Its row 3 answers for a FAULTED group before row 4 holds for ordering, as R22 says too; the
last words of R3 have ordering decided before the group state (log entry 28). -/
def State.admissionDecision (s : State) (q : ReqNo) (g : GroupNo) (c : ClassNo) (t : Tx) : Decision :=
  let r := s.requesters[q]
  let k := s.cls c
  let p := s.groups[g]
  if r.halted then .hold .halt false
  else if k.trap then .hold .trap false
  else if p.state = .faulted then .answer .failed
  else if r.mode = .ordered ∧ 0 < r.held then .hold .order (p.state != .active && k.wake)
  else if p.state = .active ∨ (p.state = .draining ∧ p.forced = false) then
    if s.lostRead t then .answer .lost else .forward
  else if k.wake then .hold .wake true
  else .answer .asleep

/-- The hold entry of a tracking entry (R71). -/
def TrackEntry.holdEntry (e : TrackEntry) (g : GroupNo) (c : ClassNo) (reason : HoldReason) : HoldEntry :=
  { ref := e.ref, seq := e.seq, group := g, cls := c, tx := e.tx, state := .waiting, reason := reason }

/-- The hold queue takes the entry of a transaction, and the claims that makes are carried out (R59, R73). -/
def takeHold (e : HoldEntry) (s : State) : State :=
  let t := holdEntry e ((s.modTrack e.ref fun e => { e with state := .held }).modCount e.cls
    fun k => { k with held := k.held + 1 })
  claim t.2 t.1

/-- A transaction held with reason TRAP traps (R106). -/
def trapIf (e : HoldEntry) (s : State) : State := if e.reason = .trap then takeTrap e none s else s

/-- A transaction is held, and asks for a wake where the decision says so (R59, R73, R106). -/
def holdTransaction (e : HoldEntry) (wake : Bool) (s : State) : State :=
  claim (if wake then [.wakeRequest e.group e.cls] else []) (trapIf e (takeHold e s))

/-- The outcome of the decision is carried out (R59, R98 part 2). -/
def carryOut (e : TrackEntry) (g : GroupNo) (c : ClassNo) (d : Decision) (s : State) : State :=
  match d with
  | .forward => (place e.ref g s).modCount c fun k => { k with forwarded := k.forwarded + 1 }
  | .answer st => (answerTrack e.ref st none s).modCount c fun k => { k with refused := k.refused + 1 }
  | .hold reason wake => holdTransaction (e.holdEntry g c reason) wake s

/-- ACTIVITY (R5, R7, R94, R98 part 3): the idle timer is reloaded, and an unforced drain is cancelled. -/
def applyActivity (g : GroupNo) (s : State) : State :=
  let r := s.groups[g]
  if r.state = .draining ∧ r.forced = false then claim (cancelDrain g s).2 (cancelDrain g s).1
  else s.setGroup g { r with idle := 0 }

/-- ACTIVITY acts where the class has the attribute. -/
def activityIf (c : ClassNo) (g : GroupNo) (s : State) : State := if (s.cls c).activity then applyActivity g s else s

/-- Pre-wakes are sent to the groups of a mask, bit n for group n (log entry 26), in ascending number (R97, R130; log entry
20). -/
def sendPreWakes (mask : BitVec 16) (s : State) : State :=
  claim ((allGroups.filter fun g => mask.getLsbD g.val).map .preWake) s

/-- A classified transaction: the decision, its outcome, ACTIVITY, the pre-wakes, in this order (R98). -/
def decideTransaction (e : TrackEntry) (g : GroupNo) (c : ClassNo) (s : State) : State :=
  let d := s.admissionDecision e.ref.requester g c e.tx
  sendPreWakes (s.cls c).prewake (activityIf c g (carryOut e g c d s))

/-! ## The check procedure (R53 to R58) -/

/-- The protocol checks (R54). -/
def State.protocolOk (s : State) (r : Request) : Bool := r.formOk && (s.track? r.ref).isNone

/-- A DENIED answer at admission (R66). -/
def deny (r : Request) (control : Bool) (s : State) : State :=
  let s := (answerTrack r.ref .denied none s).modReq r.requester fun q => { q with denied := q.denied + 1 }
  if control then s.modAu fun a => { a with controlDenied := a.controlDenied + 1 } else s

/-- The tracking entry a request gets (R60, R61). -/
def State.newEntry (s : State) (r : Request) : TrackEntry :=
  { ref := r.ref, seq := s.au.nextSeq, tx := r.tx, group := s.groupOf r.address, control := r.isControl s.straps
    cls := none, state := .queued, status := none, readData := none }

/-- A tracking entry is created, with the next sequence number (R61, R66, R68). -/
def createEntry (r : Request) (s : State) : State :=
  let control := r.isControl s.straps
  (s.modAu fun a =>
      { a with
        tracking := a.tracking ++ [s.newEntry r], nextSeq := a.nextSeq + 1
        controlAdmitted := if control then a.controlAdmitted + 1 else a.controlAdmitted }).modReq r.requester
    fun q =>
      { q with admitted := q.admitted + 1, outstanding := if control then q.outstanding else q.outstanding + 1 }

/-- The bytes a control-block write enables, by their offset in the block (R57). -/
def Request.blockBytes (p : Straps) (r : Request) : List (Nat × Byte) :=
  enabledBytes (controlOffset p r.address) r.data r.enables

/-- A control-block WRITE is let through (R56). -/
def State.controlWriteAllowed (s : State) (r : Request) : Bool :=
  s.requesters[r.requester].control && (Request.blockBytes s.straps r).all fun b => softwareOwned b.1

/-- Step 4 of the check procedure (R56, R57). -/
def controlStep (r : Request) (seq : BitVec 32) (g : GroupNo) (s : State) : State :=
  match r.kind with
  | .read => place r.ref g s
  | .write =>
    if s.controlWriteAllowed r then controlWrite r.requester seq (Request.blockBytes s.straps r) (place r.ref g s)
    else deny r true s

/-- The lookup finds a region that refuses the request (R33, R58). -/
def State.regionRefuses (s : State) (r : Request) : Bool :=
  match s.lookup (pageOf r.address) with
  | some i => !s.regions[i].permits r.requester r.kind
  | none => false

/-- Steps 5 to 7 of the check procedure (R58, R59). -/
def regionStep (r : Request) (e : TrackEntry) (g : GroupNo) (s : State) : State :=
  if s.regionRefuses r then deny r false s
  else
    let c := s.ac.programme.classify r.requester r.tx
    decideTransaction e g c
      ((s.modTrack r.ref fun e => { e with cls := some c }).modCount c fun k => { k with admitted := k.admitted + 1 })

/-- Steps 2 to 7 for a request whose tracking entry has been created (R53, R55). -/
def checkRequest (r : Request) (e : TrackEntry) (s : State) : State :=
  match e.group with
  | none => deny r e.control s
  | some g =>
    if s.requesters[r.requester].enabled = false then deny r e.control s
    else if e.control then controlStep r e.seq g s
    else regionStep r e g s

/-- A PROTOCOL answer takes the protocol answer place (R54). -/
def answerProtocol (r : Request) (s : State) : State :=
  s.modAu fun a => { a with protocolPlace := some r.ref, responses := a.responses ++ [.protocol] }

/-- A request is admitted: the check procedure (R53). -/
def admitRequest (r : Request) (s : State) : State :=
  if s.protocolOk r then checkRequest r (s.newEntry r) (createEntry r s) else answerProtocol r s

/-! ## The upstream port (R49, R52) -/

/-- A requester presents a request in the lane its address selects, if the lane's place is empty (R49; log entry 4). -/
def present (s : State) (r : Request) : State :=
  if r.isControl s.straps then
    if s.up.control[r.requester].isNone then
      s.modUp fun u => { u with control := u.control.set r.requester (some r) }
    else s
  else if s.up.memory[r.requester].isNone then
    s.modUp fun u => { u with memory := u.memory.set r.requester (some r) }
  else s

/-- The places in the order the port considers them: rotating requester order, the control lane before the memory lane
(R52). -/
def UpPort.order (u : UpPort) : List (Lane × ReqNo) :=
  allRequesters.flatMap fun i => [(.control, u.next + i), (.memory, u.next + i)]

/-- The request in a lane's place, if the lane's conditions hold for it. -/
def State.acceptable (s : State) (p : Lane × ReqNo) : Option (Lane × ReqNo × Request) :=
  match s.up.place p.1 p.2 with
  | some r => if s.laneOf r = .isOpen then some (p.1, p.2, r) else none
  | none => none

/-- The request the port accepts next (R52). -/
def State.nextAccepted (s : State) : Option (Lane × ReqNo × Request) := s.up.order.findSome? s.acceptable

/-- An accepted request leaves its place, and the rotation goes on from the requester after it (R52). -/
def takePlace (l : Lane) (q : ReqNo) (s : State) : State :=
  match l with
  | .control => s.modUp fun u => { u with control := u.control.set q none, next := q + 1 }
  | .memory => s.modUp fun u => { u with memory := u.memory.set q none, next := q + 1 }

/-- One request is accepted and admitted, if one meets its conditions (R52). -/
def acceptOne (s : State) : State :=
  match s.nextAccepted with
  | some (l, q, r) => admitRequest r (takePlace l q s)
  | none => s

/-! ## Responses (R65) -/

/-- The interconnect takes the oldest response. -/
def takeResponse (s : State) : State :=
  match s.au.responses with
  | [] => s
  | .protocol :: rs =>
    let t := s.modAu fun a => { a with responses := rs, protocolPlace := none }
    match s.au.protocolPlace with
    | some r => t.emit (.response r.requester r.tag .protocol none)
    | none => t
  | .tracked r :: rs =>
    let t := s.modAu fun a => { a with responses := rs, tracking := a.tracking.filter fun e => e.ref != r }
    match s.track? r with
    | some e =>
      (if e.control then t else t.modReq r.requester fun q => { q with outstanding := q.outstanding - 1 }).emit
        (.response r.requester r.tag (e.status.getD .done) e.readData)
    | none => t

end Sys2Proof.Machine
end

