-- ==== Sys2Proof/Machine/Downstream.lean ====
section
/-! DEFINITION. Machine/Downstream.lean: the downstream port: the CP write place, the arbiter, sending and completions
(chapter 8), and the end of every event, at which the arbiter acts and a mirror write is built (R137, R152). -/

namespace Sys2Proof.Machine

/-! ## The CP write place (R150, R152) -/

/-- The place is empty, no CP write is downstream and the list is not empty: the oldest write is to be set (R150). -/
def State.wantsWrite (s : State) : Bool :=
  s.dp.writePlace.isNone && !s.dp.isDown .cpWrite && !s.cp.writeList.isEmpty

/-- The oldest write is a mirror write. -/
def CmdProc.mirrorHead (c : CmdProc) : Bool := (c.writeList.head?.map CpWrite.isMirror).getD false

/-- A mirror write built from the state as it stands (R152, R193). -/
def State.mirrorTx (s : State) : Tx :=
  blockWrite s.straps 0x40 (statusImage s.hold.backpressure s.cp.state s.groups (lineCodes s.slu.lines))
    (List.replicate 48 true)

/-- The oldest write is set in the CP write place; a mirror write is built now (R150, R152). -/
def setWrite (s : State) : State :=
  match s.cp.writeList.head? with
  | some w =>
    let tx := if w.isMirror then some s.mirrorTx else w.tx
    s.modDp fun d => { d with writePlace := tx }
  | none => s

/-! ## Sending (R137, R138) -/

/-- A transaction is sent in a free slot: the slot is filled, the take-ready flag becomes 0 and the turn is updated. -/
def sendIn (k : SlotNo) (source : SlotSource) (tx : Tx) (turn : Turn) (s : State) : State :=
  (s.modDp fun d =>
      { d with
        slots := d.slots.set k (some { source := source, kind := tx.kind, length := tx.length })
        takeReady := false, turn := turn }).emit (.send k s.dp.generation tx)

/-- The head of the forward queue is sent, and READY entries move into the freed place (R138, R78). -/
def sendForward (k : SlotNo) (s : State) : State :=
  match s.dp.forward with
  | [] => s
  | r :: rs =>
    let t := s.modDp fun d => { d with forward := rs }
    match s.track? r with
    | some e =>
      claim [.moveReady]
        (sendIn k (.forward r e.group) e.tx .internal (t.modTrack r fun e => { e with state := .inFlight }))
    | none => t

/-- The write set in the CP write place publishes the completion that is being posted. -/
def CmdProc.postsNow (c : CmdProc) : Bool :=
  c.state == .posting
    && (match c.writeList.head?.map CpWrite.kind with
        | some (.publish _ true) => true
        | _ => false)

/-- The highest-priority internal offer is sent, and its source is told (R136, R138, R156, R43). -/
def sendInternal (k : SlotNo) (s : State) : State :=
  match s.dp.writePlace with
  | some tx =>
    let t := sendIn k .cpWrite tx .forward (s.modDp fun d => { d with writePlace := none })
    if s.cp.postsNow then postingEnd t else t
  | none =>
  match s.dp.fetchPlace with
  | some tx => sendIn k .cpFetch tx .forward (s.modDp fun d => { d with fetchPlace := none })
  | none =>
  match s.dp.scrubPlace with
  | some tx =>
    (sendIn k .scrub tx .forward (s.modDp fun d => { d with scrubPlace := none })).modScrub
      fun e => { e with engine := .outstanding }
  | none => s

/-- Some internal place holds a transaction. -/
def DownPort.hasOffer (d : DownPort) : Bool := d.writePlace.isSome || d.fetchPlace.isSome || d.scrubPlace.isSome

/-- The arbiter takes its turn with the internal stream: the forward queue is empty, or the turn is INTERNAL (R137). -/
def DownPort.internalTurn (d : DownPort) : Bool := d.forward.isEmpty || d.turn == .internal

/-- The arbiter (R137). A mirror write that waits to be set counts as an offer; it is built only if it is the one sent here
(R152). -/
def arbitrate (s : State) : State :=
  match s.dp.freeSlot with
  | none => s
  | some k =>
    if s.dp.takeReady = false then s
    else if (s.dp.hasOffer || s.wantsWrite) && s.dp.internalTurn then
      sendInternal k (if s.wantsWrite then setWrite s else s)
    else sendForward k s

/-- The end of every event (R137, R150, R152; log entry 10): a write other than a mirror write is set where the place is
free, the arbiter acts, and what then waits is set, a mirror write being built from the state the event leaves. -/
def finish (s : State) : State :=
  let s := if s.wantsWrite && !s.cp.mirrorHead then setWrite s else s
  let s := arbitrate s
  if s.wantsWrite then setWrite s else s

/-! ## Completions (R139 to R141) -/

/-- The completion is not discarded for its read data (R139). -/
def Slot.dataFits (sl : Slot) (result : MemResult) (data : Option (List Byte)) : Bool :=
  match result, sl.kind, data with
  | .error, _, _ => true
  | .ok, .write, none => true
  | .ok, .read, some d => d.length == 16 * sl.length
  | _, _, _ => false

def freeTheSlot (k : SlotNo) (s : State) : State := s.modDp fun d => { d with slots := d.slots.set k none }

/-- The bytes of an OK completion are counted for the class of a classified entry (R101). -/
def countBytes (e : TrackEntry) (s : State) : State :=
  match e.cls with
  | none => s
  | some c =>
    match e.tx.kind with
    | .read => s.modCount c fun k => { k with readBytes := k.readBytes + BitVec.ofNat 32 (16 * e.tx.length) }
    | .write => s.modCount c fun k => { k with writeBytes := k.writeBytes + BitVec.ofNat 32 e.tx.enabledCount }

/-- A forwarded transaction has completed: the admission unit answers its entry, the group's in-flight count goes down, and
the CP is told of a control-block access (R63, R140). -/
def forwardDone (r : TrackRef) (group : Option GroupNo) (result : MemResult) (data : Option (List Byte)) (s : State) :
    State :=
  let answered := match s.track? r, result with
    | some e, .ok => countBytes e (answerTrack r .done data s)
    | some _, .error => answerTrack r .failed none s
    | none, _ => s
  let lowered := match group with
    | some g => lowerInFlight g answered
    | none => answered
  match s.track? r with
  | some e => if e.control then controlDone e.seq lowered else lowered
  | none => lowered

/-- A completion is handed to the source of its slot (R140, R141). -/
def handOn (source : SlotSource) (result : MemResult) (data : Option (List Byte)) (s : State) : State :=
  match source, result with
  | .forward r g, _ => forwardDone r g result data s
  | .cpWrite, _ => cpWriteEnd result s
  | .cpFetch, .ok => let c := decodeSlot (data.getD []); fetchOk c.1 c.2 s
  | .cpFetch, .error => fetchError s
  | .scrub, .ok => scrubAdvance s
  | .scrub, .error => scrubFail s

/-- A completion record arrives: it is matched with its slot, or discarded (R139). -/
def takeCompletion (k : SlotNo) (generation : BitVec 8) (result : MemResult) (data : Option (List Byte)) (s : State) :
    State :=
  match s.dp.slots[k] with
  | none => s
  | some sl =>
    if generation = s.dp.generation ∧ sl.dataFits result data then handOn sl.source result data (freeTheSlot k s)
    else s

end Sys2Proof.Machine
end

