-- ==== Sys2Proof/Machine/ControlWrites.lean ====
section
/-! DEFINITION. Machine/ControlWrites.lean: the meanings of the control-block writes: a requester presents the write in its
control lane, and the port accepts one request, as at ADMISSION (R49, R52, R56, R57, R147; log entry 5). -/

namespace Sys2Proof.Machine

/-- A control-block write is presented, and one request is accepted. -/
def presentWrite (r : Request) (s : State) : Host.Outcome State Fault Refusal :=
  .next (finish (acceptOne (present s.begin r)))

/-- CMD_PRODUCER (R147). -/
def execCmdProducer (requester : ReqNo) (tag : Tag) (value : BitVec 16) (enables : BitVec 2) (s : State) :
    Host.Outcome State Fault Refusal :=
  presentWrite (wordWrite s.straps requester tag 0x0 2 (value.setWidth 32) (enables.setWidth 32)) s

/-- REPORT_CONSUMER (R147). -/
def execReportConsumer (requester : ReqNo) (tag : Tag) (value : BitVec 16) (enables : BitVec 2) (s : State) :
    Host.Outcome State Fault Refusal :=
  presentWrite (wordWrite s.straps requester tag 0x4 2 (value.setWidth 32) (enables.setWidth 32)) s

/-- IRQ_ENABLE (R147). -/
def execIrqEnable (requester : ReqNo) (tag : Tag) (value : BitVec 32) (enables : BitVec 4) (s : State) :
    Host.Outcome State Fault Refusal :=
  presentWrite (wordWrite s.straps requester tag 0x8 4 value (enables.setWidth 32)) s

/-- RESTART_REQUEST (R147, R158). -/
def execRestartRequest (requester : ReqNo) (tag : Tag) (value : BitVec 32) (enables : BitVec 4) (s : State) :
    Host.Outcome State Fault Refusal :=
  presentWrite (wordWrite s.straps requester tag 0xC 4 value (enables.setWidth 32)) s

/-- The request of CONTROL_BLOCK_WRITE. -/
def offsetWrite (p : Straps) (q : ReqNo) (tag : Tag) (offset : BitVec 13) (length : Nat) (data : List Byte)
    (enables : List Bool) : Request :=
  { requester := q, tag := tag, kind := .write, address := controlAddr p offset.toNat, length := length, data := data
    enables := enables }

/-- CONTROL_BLOCK_WRITE (R56, R57). -/
def execControlBlockWrite (requester : ReqNo) (tag : Tag) (offset : BitVec 13) (length : Nat) (data : List Byte)
    (enables : List Bool) (s : State) : Host.Outcome State Fault Refusal :=
  presentWrite (offsetWrite s.straps requester tag offset length data enables) s

end Sys2Proof.Machine
end

