-- ==== Sys2Proof/Machine/Lines.lean ====
section
/-! DEFINITION. Machine/Lines.lean: the meanings of SETTLE_EXPIRY and of the two commands of the wake inputs (chapter 7). -/

namespace Sys2Proof.Machine

/-- The settle timer of a line expires (R119; log entry 7). -/
def settleExpiry (n : LineNo) (s : State) : State :=
  if s.slu.lines[n].state = .settling ∧ s.slu.lines[n].timer = some 0 then settleEnd n s else s

/-- SETTLE_EXPIRY (R119). -/
def execSettleExpiry (line : LineNo) (s : State) : Host.Outcome State Fault Refusal :=
  .next (finish (settleExpiry line s.begin))

/-! ## Recognition (R128 to R130) -/

/-- A recognition: the group set is pre-woken and WAKE_LINE is raised (R130). -/
def recognise (n : WakeNo) (s : State) : State :=
  let groups := s.wlu[n].groups
  raiseNotice (.wakeLine n groups) (sendPreWakes groups s)

/-- The mode recognises a change to the level (R128). -/
def WakeMode.edge : WakeMode → Level → Bool
  | .rise, l => l == .high
  | .fall, l => l == .low
  | .both, _ => true
  | .off, _ | .sampled, _ => false

/-- A wake input takes a level (R128); a level equal to the last one is no transition. -/
def takeLevel (n : WakeNo) (l : Level) (s : State) : State :=
  let w := s.wlu[n]
  if l = w.lastLevel then s
  else
    let t := s.setWakeLine n { w with lastLevel := l }
    if w.mode.edge l then recognise n t else t

/-- WAKE_INPUT_TRANSITION (R128). -/
def execWakeInputTransition (line : WakeNo) (level : Level) (s : State) : Host.Outcome State Fault Refusal :=
  .next (finish (takeLevel line level s.begin))

/-- What a sample does to a wake-line record, and whether it makes a recognition (R129). -/
def WakeLine.sample (w : WakeLine) : WakeLine × Bool :=
  match w.armed, w.lastLevel with
  | true, .high =>
    if w.count ≤ w.highRun + 1 then ({ w with armed := false, highRun := 0, lowRun := 0 }, true)
    else ({ w with highRun := w.highRun + 1 }, false)
  | true, .low => ({ w with highRun := 0 }, false)
  | false, .low =>
    if w.count ≤ w.lowRun + 1 then ({ w with armed := true, highRun := 0, lowRun := 0 }, false)
    else ({ w with lowRun := w.lowRun + 1 }, false)
  | false, .high => ({ w with lowRun := 0 }, false)

/-- The sample of a line in mode SAMPLED, where the sample point of this TU is still to be taken (log entry 8). -/
def takeSample (n : WakeNo) (s : State) : State :=
  let w := s.wlu[n]
  if w.mode = .sampled ∧ w.sampleDue then
    let r := w.sample
    let t := s.setWakeLine n { r.1 with sampleDue := false }
    if r.2 then recognise n t else t
  else s

/-- WAKE_LINE_SAMPLE (R129). -/
def execWakeLineSample (line : WakeNo) (s : State) : Host.Outcome State Fault Refusal :=
  .next (finish (takeSample line s.begin))

end Sys2Proof.Machine
end

