-- ==== Sys2Proof/Machine/Power.lean ====
section
/-! DEFINITION. Machine/Power.lean: the meanings of DONE, the timer expiries of a group, and TU_TICK. -/

namespace Sys2Proof.Machine

/-- DONE (R10, R11, R13 to R15, R18, R19). -/
def execDone (group : GroupNo) (result : DoneResult) (s : State) : Host.Outcome State Fault Refusal :=
  .next (finish (takeDone group result s.begin))

/-- ENTRY_TIMEOUT (R15). -/
def execEntryTimeout (group : GroupNo) (s : State) : Host.Outcome State Fault Refusal :=
  .next (finish (entryExpiry group s.begin))

/-- EXIT_TIMEOUT (R19). -/
def execExitTimeout (group : GroupNo) (s : State) : Host.Outcome State Fault Refusal :=
  .next (finish (exitExpiry group s.begin))

/-- START_SETTLE_EXPIRY (R28). -/
def execStartSettleExpiry (group : GroupNo) (s : State) : Host.Outcome State Fault Refusal :=
  .next (finish (startSettleEnd group s.begin))

/-! ## TU_TICK (R5, R6, R129, R184) -/

/-- A running timer loses one TU (log entry 7). -/
def lessOne (timer : Option Nat) : Option Nat := timer.map fun n => n - 1

/-- Part time goes up by 1 (R184), the running timers count down, and the sample point of this TU becomes due (R129; log
entry 8). -/
def advanceTime (s : State) : State :=
  let now := s.partTime + 1
  { s with
    partTime := now
    groups := s.groups.map fun r => { r with timer := lessOne r.timer }
    slu := { s.slu with lines := s.slu.lines.map fun l => { l with timer := lessOne l.timer } }
    wlu := s.wlu.map fun w => { w with sampleDue := now.toNat % Config.samplePeriod == 0 } }

/-- A state in which idle elapsed advances (R5). -/
def GroupState.ages : GroupState → Bool
  | .active | .draining | .entering | .asleep => true
  | .waking | .scrubbing | .faulted => false

/-- Idle elapsed advances and the descent test is applied (R5, R6). -/
def tickGroup (g : GroupNo) (s : State) : State :=
  let r := s.groups[g]
  if r.state.ages then descentTest g (s.setGroup g { r with idle := min (r.idle + 1) Config.idleLimit }) else s

/-- TU_TICK: the groups are taken in ascending number (log entry 20). -/
def execTuTick (s : State) : Host.Outcome State Fault Refusal :=
  .next (finish (allGroups.foldl (fun s g => tickGroup g s) (advanceTime s.begin)))

end Sys2Proof.Machine
end

