-- ==== Sys2Proof/Machine/Reset.lean ====
section
/-! DEFINITION. Machine/Reset.lean: the meanings of COLD_RESET and WARM_RESET (00_scope.md 4.5 and the reset rule of each
chapter). -/

namespace Sys2Proof.Machine

/-- What a reset leaves, given the group records and the generation that the kind of reset gives. The places of the
upstream port keep the requests that wait in them, and the rotation starts at requester 0 (R49, R52, R67). -/
def resetState (pins : ResetPins) (groups : Vector GroupRec 16) (generation : BitVec 8) (s : State) : State :=
  let writes := initialWrites pins.straps groups (Vector.replicate 8 {})
  { straps := pins.straps
    partTime := 0
    timeouts := {}
    groups := groups
    regions := Vector.replicate 48 {}
    scrub := {}
    up := { s.up with next := 0 }
    au := {}
    requesters := resetRequesters pins.straps
    hold := {}
    ac := {}
    slu := {}
    wlu := resetWakeLines pins.wake
    dp := resetDp pins.ready generation writes
    cp := resetCp writes
    outputs := []
    freeDraws := s.freeDraws
    pending := s.pending }

/-- COLD_RESET (R3, R67, R144). -/
def execColdReset (pins : ResetPins) (s : State) : Host.Outcome State Fault Refusal :=
  .next (finish (resetState pins (Vector.replicate 16 {}) 0 s))

/-- WARM_RESET (R28, R67, R144): the groups other than the control group are WAKING, and the generation goes up by 1. -/
def execWarmReset (pins : ResetPins) (s : State) : Host.Outcome State Fault Refusal :=
  .next (finish (resetState pins (warmGroups pins.straps) (s.dp.generation + 1) s))

end Sys2Proof.Machine
end

