-- ==== Sys2Proof/Machine/RingCommands.lean ====
section
/-! DEFINITION. Machine/RingCommands.lean: the meanings of the ring commands: the event at which the memory controller
completes the command processor's fetch with OK, the slot read spelling the command (R154, R155, R163; log entry 6). The
checks and claims are those of Machine/Commands.lean. -/

namespace Sys2Proof.Machine

/-- The fetch downstream completes with a slot that spells the tag and the command. With no fetch downstream the event
cannot occur, and nothing happens (log entry 6). -/
def deliverSlot (tag : BitVec 16) (body : CmdBody) (s : State) : State :=
  match s.dp.find .cpFetch with
  | some k => fetchOk tag body (freeTheSlot k s)
  | none => s

/-- NOP (R165). -/
def execNop (slotTag : BitVec 16) (s : State) : Host.Outcome State Fault Refusal :=
  .next (finish (deliverSlot slotTag .nop s.begin) )

/-- SET_REGION (R166, R167). -/
def execSetRegion (slotTag : BitVec 16) (index policy readAllowed writeAllowed : Byte)
    (basePage pageCount fill : BitVec 32) (mask : BitVec 16) (s : State) : Host.Outcome State Fault Refusal :=
  .next (finish
    (deliverSlot slotTag (.setRegion index policy readAllowed writeAllowed basePage pageCount fill mask) s.begin))

/-- CLEAR_REGION (R168). -/
def execClearRegion (slotTag : BitVec 16) (index : Byte) (s : State) : Host.Outcome State Fault Refusal :=
  .next (finish (deliverSlot slotTag (.clearRegion index) s.begin))

/-- CLEAR_LOST (R168). -/
def execClearLost (slotTag : BitVec 16) (index : Byte) (s : State) : Host.Outcome State Fault Refusal :=
  .next (finish (deliverSlot slotTag (.clearLost index) s.begin))

/-- SET_GROUP_POLICY (R169). -/
def execSetGroupPolicy (slotTag : BitVec 16) (group deepest : Byte) (tNap tRetain tOff : BitVec 32) (s : State) :
    Host.Outcome State Fault Refusal :=
  .next (finish (deliverSlot slotTag (.setGroupPolicy group deepest tNap tRetain tOff) s.begin))

/-- FORCE_DEPTH (R170). -/
def execForceDepth (slotTag : BitVec 16) (group depth : Byte) (s : State) : Host.Outcome State Fault Refusal :=
  .next (finish (deliverSlot slotTag (.forceDepth group depth) s.begin))

/-- WAKE_GROUPS (R171). -/
def execWakeGroups (slotTag : BitVec 16) (mask : BitVec 16) (s : State) : Host.Outcome State Fault Refusal :=
  .next (finish (deliverSlot slotTag (.wakeGroups mask) s.begin))

/-- RECOVER_GROUP (R172). -/
def execRecoverGroup (slotTag : BitVec 16) (group : Byte) (s : State) : Host.Outcome State Fault Refusal :=
  .next (finish (deliverSlot slotTag (.recoverGroup group) s.begin))

/-- SET_LINE (R174, R122). -/
def execSetLine (slotTag : BitVec 16) (line threshold offLevel : Byte) (deps settle : BitVec 16) (s : State) :
    Host.Outcome State Fault Refusal :=
  .next (finish (deliverSlot slotTag (.setLine line threshold offLevel deps settle) s.begin))

/-- FORCE_LINE (R174, R123). -/
def execForceLine (slotTag : BitVec 16) (line action : Byte) (s : State) : Host.Outcome State Fault Refusal :=
  .next (finish (deliverSlot slotTag (.forceLine line action) s.begin))

/-- SET_WAKE_LINE (R175, R131). -/
def execSetWakeLine (slotTag : BitVec 16) (line mode count : Byte) (groups : BitVec 16) (s : State) :
    Host.Outcome State Fault Refusal :=
  .next (finish (deliverSlot slotTag (.setWakeLine line mode count groups) s.begin))

/-- SET_ELEMENT (R176). -/
def execSetElement (slotTag : BitVec 16) (index enabled kindTest anyPage : Byte) (lowPage highPage : BitVec 32)
    (hasData : Byte) (pattern mask : Vector Byte 8) (requesters : BitVec 16) (s : State) : Host.Outcome State
    Fault Refusal :=
  .next (finish (deliverSlot slotTag
    (.setElement index enabled kindTest anyPage lowPage highPage hasData pattern mask requesters) s.begin))

/-- SET_CLASS (R177). -/
def execSetClass (slotTag : BitVec 16) (cls activity wake trap : Byte) (prewake : BitVec 16)
    (term0 term1 term2 term3 : TermArg) (s : State) : Host.Outcome State Fault Refusal :=
  .next (finish (deliverSlot slotTag (.setClass cls activity wake trap prewake term0 term1 term2 term3) s.begin))

/-- SET_REQUESTER (R178, R69, R70). -/
def execSetRequester (slotTag : BitVec 16) (requester enabled mode quota control : Byte) (s : State) :
    Host.Outcome State Fault Refusal :=
  .next (finish (deliverSlot slotTag (.setRequester requester enabled mode quota control) s.begin))

/-- RELEASE_TRAP (R179, R110, R111). -/
def execReleaseTrap (slotTag : BitVec 16) (requester disposition : Byte) (s : State) : Host.Outcome State Fault
    Refusal :=
  .next (finish (deliverSlot slotTag (.releaseTrap requester disposition) s.begin))

/-- SET_QUEUE_LIMITS (R180, R83). -/
def execSetQueueLimits (slotTag : BitVec 16) (high low : Byte) (s : State) : Host.Outcome State Fault Refusal :=
  .next (finish (deliverSlot slotTag (.setQueueLimits high low) s.begin))

/-- SET_TIMEOUTS (R180). -/
def execSetTimeouts (slotTag : BitVec 16) (entry nap retain off : BitVec 16) (s : State) : Host.Outcome State
    Fault Refusal :=
  .next (finish (deliverSlot slotTag (.setTimeouts entry nap retain off) s.begin))

/-- SNAPSHOT (R181, R190, R191). -/
def execSnapshot (slotTag : BitVec 16) (clear : Byte) (s : State) : Host.Outcome State Fault Refusal :=
  .next (finish (deliverSlot slotTag (.snapshot clear) s.begin))

end Sys2Proof.Machine
end

