-- ==== Sys2Proof/Machine/Traffic.lean ====
section
/-! DEFINITION. Machine/Traffic.lean: the meanings of the commands of the memory path: ADMISSION, RESPONSE_TAKEN,
TAKE_READY, COMPLETION. -/

namespace Sys2Proof.Machine

/-- ADMISSION (R52, R53): the listed requests are presented, and one request is accepted if one meets its conditions. -/
def execAdmission (presented : List Request) (s : State) : Host.Outcome State Fault Refusal :=
  .next (finish (acceptOne (presented.foldl present s.begin)))

/-- RESPONSE_TAKEN (R65). -/
def execResponseTaken (s : State) : Host.Outcome State Fault Refusal := .next (finish (takeResponse s.begin))

/-- TAKE_READY (R133). -/
def execTakeReady (s : State) : Host.Outcome State Fault Refusal :=
  .next (finish (s.begin.modDp fun d => { d with takeReady := true }))

/-- COMPLETION (R139 to R141). -/
def execCompletion (slot : SlotNo) (generation : BitVec 8) (result : MemResult) (readData : Option (List Byte))
    (s : State) : Host.Outcome State Fault Refusal :=
  .next (finish (takeCompletion slot generation result readData s.begin))

end Sys2Proof.Machine
end

