-- ==== Sys2Proof/Machine/Dispatch.lean ====
section
/-! DEFINITION. Machine/Dispatch.lean: the meaning of every command, one arm for each constructor of Instr. -/

namespace Sys2Proof.Machine

/-- The effect of a command on everything but the queue. -/
def exec (i : Instr) (s : State) : Host.Outcome State Fault Refusal :=
  match i with
  | .coldReset pins => Sys2Proof.Machine.execColdReset pins s
  | .warmReset pins => Sys2Proof.Machine.execWarmReset pins s
  | .admission presented => Sys2Proof.Machine.execAdmission presented s
  | .responseTaken => Sys2Proof.Machine.execResponseTaken s
  | .takeReady => Sys2Proof.Machine.execTakeReady s
  | .completion slot generation result readData => Sys2Proof.Machine.execCompletion slot generation result readData s
  | .done group result => Sys2Proof.Machine.execDone group result s
  | .entryTimeout group => Sys2Proof.Machine.execEntryTimeout group s
  | .exitTimeout group => Sys2Proof.Machine.execExitTimeout group s
  | .startSettleExpiry group => Sys2Proof.Machine.execStartSettleExpiry group s
  | .tuTick => Sys2Proof.Machine.execTuTick s
  | .settleExpiry line => Sys2Proof.Machine.execSettleExpiry line s
  | .wakeInputTransition line level => Sys2Proof.Machine.execWakeInputTransition line level s
  | .wakeLineSample line => Sys2Proof.Machine.execWakeLineSample line s
  | .cmdProducer requester tag value enables => Sys2Proof.Machine.execCmdProducer requester tag value enables s
  | .reportConsumer requester tag value enables => Sys2Proof.Machine.execReportConsumer requester tag value enables s
  | .irqEnable requester tag value enables => Sys2Proof.Machine.execIrqEnable requester tag value enables s
  | .restartRequest requester tag value enables => Sys2Proof.Machine.execRestartRequest requester tag value enables s
  | .controlBlockWrite requester tag offset length data enables => Sys2Proof.Machine.execControlBlockWrite requester tag offset length data enables s
  | .nop slotTag => Sys2Proof.Machine.execNop slotTag s
  | .setRegion slotTag index policy readAllowed writeAllowed basePage pageCount fill mask => Sys2Proof.Machine.execSetRegion slotTag index policy readAllowed writeAllowed basePage pageCount fill mask s
  | .clearRegion slotTag index => Sys2Proof.Machine.execClearRegion slotTag index s
  | .clearLost slotTag index => Sys2Proof.Machine.execClearLost slotTag index s
  | .setGroupPolicy slotTag group deepest tNap tRetain tOff => Sys2Proof.Machine.execSetGroupPolicy slotTag group deepest tNap tRetain tOff s
  | .forceDepth slotTag group depth => Sys2Proof.Machine.execForceDepth slotTag group depth s
  | .wakeGroups slotTag mask => Sys2Proof.Machine.execWakeGroups slotTag mask s
  | .recoverGroup slotTag group => Sys2Proof.Machine.execRecoverGroup slotTag group s
  | .setLine slotTag line threshold offLevel deps settle => Sys2Proof.Machine.execSetLine slotTag line threshold offLevel deps settle s
  | .forceLine slotTag line action => Sys2Proof.Machine.execForceLine slotTag line action s
  | .setWakeLine slotTag line mode count groups => Sys2Proof.Machine.execSetWakeLine slotTag line mode count groups s
  | .setElement slotTag index enabled kindTest anyPage lowPage highPage hasData pattern mask requesters => Sys2Proof.Machine.execSetElement slotTag index enabled kindTest anyPage lowPage highPage hasData pattern mask requesters s
  | .setClass slotTag cls activity wake trap prewake term0 term1 term2 term3 => Sys2Proof.Machine.execSetClass slotTag cls activity wake trap prewake term0 term1 term2 term3 s
  | .setRequester slotTag requester enabled mode quota control => Sys2Proof.Machine.execSetRequester slotTag requester enabled mode quota control s
  | .releaseTrap slotTag requester disposition => Sys2Proof.Machine.execReleaseTrap slotTag requester disposition s
  | .setQueueLimits slotTag high low => Sys2Proof.Machine.execSetQueueLimits slotTag high low s
  | .setTimeouts slotTag entry nap retain off => Sys2Proof.Machine.execSetTimeouts slotTag entry nap retain off s
  | .snapshot slotTag clear => Sys2Proof.Machine.execSnapshot slotTag clear s

end Sys2Proof.Machine
end

