-- ==== Sys2Proof/Safety.lean ====
section
/-! DEFINITION. Safety.lean: the laws the spec states for every state of the part, and the words in which the statements
about single commands are made. -/

namespace Sys2Proof.Machine

/-! ## Laws of every state -/

/-- The control group is ACTIVE at D0 and may not sleep (R2); it is not being scrubbed (R41). -/
def State.controlAwake (s : State) : Prop :=
  s.groups[s.controlGroup].state = .active ∧ s.groups[s.controlGroup].depth = .d0
    ∧ s.groups[s.controlGroup].deepest = .d0
    ∧ s.controlGroup ∉ s.scrub.queue ∧ s.scrub.cursorGroup ≠ some s.controlGroup

/-- The forward queue holds at most 16 entries (R135). -/
def State.forwardFits (s : State) : Prop := s.dp.forward.length ≤ 16

/-- The watermarks are legal, the hold queue stays within its 64 places, and while backpressure is off the occupancy is
below the high watermark (R82, R84). -/
def State.holdFits (s : State) : Prop :=
  1 ≤ s.hold.low ∧ s.hold.low < s.hold.high ∧ s.hold.high ≤ 64 ∧ s.hold.entries.length ≤ 64
    ∧ (s.hold.backpressure = false → s.hold.entries.length < s.hold.high)

/-- The tracking table holds at most 128 entries, at most 124 of which are not control-block accesses (R60). -/
def State.trackingFits (s : State) : Prop := s.au.tracking.length ≤ 128
  ∧ (s.au.tracking.filter fun e => !e.control).length ≤ 124

/-- No two tracking entries have the same requester and tag (R60). -/
def State.tagsDiffer (s : State) : Prop := (s.au.tracking.map TrackEntry.ref).Nodup

/-- A supply line is at its off level only while its off condition holds (R117). -/
def State.suppliesHold (s : State) : Prop := ∀ n : LineNo, s.slu.lines[n].state = .off → s.offCondition s.slu.lines[n]

/-- A supply line whose off condition holds is OFF: every event that can make the condition hold evaluates the line (R116,
R117, R121 to R123). -/
def State.suppliesSleep (s : State) : Prop :=
  ∀ n : LineNo, s.offCondition s.slu.lines[n] = true → s.slu.lines[n].state = .off

/-- An enabled control requester remains (R178). -/
def State.controlLeft (s : State) : Prop := ∃ q : ReqNo, s.requesters[q].enabled = true ∧ s.requesters[q].control = true

/-- Each valid region lies within one group of installed memory and off the control block's two pages, and no two valid
regions share a page (R31). -/
def State.regionsApart (s : State) : Prop :=
  (∀ i : RegionNo, s.regions[i].valid = true →
      1 ≤ s.regions[i].pageCount
        ∧ (∃ g : GroupNo, groupOfPage s.straps s.regions[i].basePage = some g
          ∧ groupOfPage s.straps (s.regions[i].basePage + s.regions[i].pageCount - 1) = some g)
        ∧ (s.regions[i].basePage + s.regions[i].pageCount ≤ controlPage s.straps
          ∨ controlPage s.straps + 2 ≤ s.regions[i].basePage))
    ∧ ∀ i j : RegionNo, i ≠ j → s.regions[i].valid = true → s.regions[j].valid = true →
      s.regions[i].basePage + s.regions[i].pageCount ≤ s.regions[j].basePage
        ∨ s.regions[j].basePage + s.regions[j].pageCount ≤ s.regions[i].basePage

/-- At most 32 commands are pending (R148), and the command in the cycle is one of them; at most 64 reports are unconsumed
(R186). -/
def State.ringsFit (s : State) : Prop :=
  (s.cp.producerShadow - s.cp.cmdConsumer).toNat ≤ 32
    ∧ (s.cp.state ≠ .idle → s.cp.state ≠ .errorStop → s.cp.producerShadow ≠ s.cp.cmdConsumer)
    ∧ (s.cp.reportProducer - s.cp.consumerShadow).toNat ≤ 64

/-- The references of the transactions downstream for the forward queue, in slot order (R134). -/
def DownPort.forwardedRefs (d : DownPort) : List TrackRef :=
  d.slots.toList.filterMap fun k =>
    match k.map Slot.source with
    | some (.forward r _) => some r
    | _ => none

/-- The references of the tracking entries in a state. -/
def State.refsIn (s : State) (st : TrackState) : List TrackRef :=
  (s.au.tracking.filter fun e => e.state == st).map TrackEntry.ref

/-- The references of the response list's tracked responses. -/
def State.answeredRefs (s : State) : List TrackRef :=
  s.au.responses.filterMap fun
    | .tracked r => some r
    | .protocol => none

/-- Every transaction is in the one place its tracking entry's state names: HELD entries in the hold queue, QUEUED ones in
the forward queue, IN_FLIGHT ones in a slot, ANSWERING ones in the response list (R62, R65, R71, R135). -/
def State.placesAgree (s : State) : Prop :=
  (s.au.tracking.map TrackEntry.ref).Nodup
    ∧ (s.hold.entries.map HoldEntry.ref).Perm (s.refsIn .held)
    ∧ s.dp.forward.Perm (s.refsIn .queued)
    ∧ s.dp.forwardedRefs.Perm (s.refsIn .inFlight)
    ∧ s.answeredRefs.Perm (s.refsIn .answering)

/-- The held counts of groups and requesters are the numbers of their hold entries, and a group in an unforced drain has
none (R7, R73, R79). -/
def State.heldCountsAgree (s : State) : Prop :=
  (∀ g : GroupNo, s.groups[g].held = (s.hold.entries.filter fun e => e.group == g).length)
    ∧ (∀ q : ReqNo, s.requesters[q].held = (s.hold.entries.filter fun e => e.requester == q).length)
    ∧ (∀ g : GroupNo, s.groups[g].state = .draining → s.groups[g].forced = false → s.groups[g].held = 0)

/-- The sleep view of a group is its depth while it is ASLEEP, and "not asleep" in every other state (R116). -/
def State.viewsAgree (s : State) : Prop :=
  ∀ g : GroupNo, s.slu.view[g] = if s.groups[g].state = .asleep then viewOf s.groups[g].depth else none

/-- The region is a valid one of the group, and scrubs refill it (R31, R42). -/
def State.fills (s : State) (g : GroupNo) (i : RegionNo) : Prop :=
  s.regions[i].valid = true ∧ groupOfPage s.straps s.regions[i].basePage = some g ∧ s.regions[i].policy = .loseFill

/-- The slots that carry a scrub write. -/
def DownPort.scrubSlots (d : DownPort) : Nat :=
  (d.slots.toList.filter fun k => k.map Slot.source == some .scrub).length

/-- The scrub queue holds the SCRUBBING groups, each once and each with a region to refill. The engine is IDLE exactly when
it is empty; else it serves the head, its write waiting in the scrub place (OFFERED) or downstream (OUTSTANDING), one at
a time (R41 to R43). -/
def State.scrubAgrees (s : State) : Prop :=
  s.scrub.queue.Nodup ∧ (∀ g : GroupNo, g ∈ s.scrub.queue ↔ s.groups[g].state = .scrubbing)
    ∧ (∀ g ∈ s.scrub.queue, ∃ i : RegionNo, s.fills g i)
    ∧ (s.scrub.engine = .idle ↔ s.scrub.queue = [])
    ∧ s.scrub.cursorGroup = s.scrub.queue.head?
    ∧ (match s.scrub.cursorGroup with
      | some g => (∃ i : RegionNo, s.scrub.cursorRegion = some i ∧ s.fills g i) ∧ s.scrub.cursorAddr.isSome = true
      | none => s.scrub.cursorRegion = none ∧ s.scrub.cursorAddr = none)
    ∧ (s.dp.scrubPlace.isSome = true ↔ s.scrub.engine = .offered)
    ∧ s.dp.scrubSlots = if s.scrub.engine = .outstanding then 1 else 0

/-- A group with a valid KEEP region is neither on its way to OFF nor asleep at OFF; and a group is at D0 while it is ACTIVE,
DRAINING or SCRUBBING (R12, R35, R3). -/
def State.keepStays (s : State) : Prop :=
  ∀ g : GroupNo,
    let r := s.groups[g]
    (r.state = .active ∨ r.state = .draining ∨ r.state = .scrubbing → r.depth = .d0)
      ∧ (r.state = .draining ∨ r.state = .entering → r.target = some .off → s.hasKeep g = false)
      ∧ (r.state = .asleep ∨ r.state = .entering → r.depth = .off → s.hasKeep g = false)

/-- The forward-queue entries of a group. -/
def State.forwardOf (s : State) (g : GroupNo) : List TrackRef :=
  s.dp.forward.filter fun r => (s.track? r).bind TrackEntry.group == some g

/-- A slot carries a forwarded transaction of the group (R134). -/
def Slot.carries (g : GroupNo) : Option Slot → Bool
  | some { source := .forward _ (some h), .. } => h == g
  | _ => false

/-- The in-flight count of a group is the number of its entries in the forward queue and in slots, and is 0 outside ACTIVE
and DRAINING; a READY entry's group is ACTIVE; and a held entry's group is its tracking entry's (R9, R71, R78, R142). -/
def State.flightsAgree (s : State) : Prop :=
  (∀ g : GroupNo, s.groups[g].inFlight = (s.forwardOf g).length + (s.dp.slots.toList.filter (Slot.carries g)).length)
    ∧ (∀ g : GroupNo, s.groups[g].inFlight ≠ 0 → s.groups[g].state = .active ∨ s.groups[g].state = .draining)
    ∧ (∀ e ∈ s.hold.entries, e.state = .ready → s.groups[e.group].state = .active)
    ∧ ∀ e ∈ s.hold.entries, (s.track? e.ref).bind TrackEntry.group = some e.group

/-- Of an ORDERED requester's held entries only the oldest is READY, so that none passes an older one (R75). -/
def State.readyInOrder (s : State) : Prop :=
  ∀ e ∈ s.hold.entries, e.state = .ready → s.requesters[e.requester].mode = .ordered → s.hold.isOldest e = true

/-! ## Reset -/

/-- The record of a group after a cold reset (R3, R27). -/
def GroupRec.cold : GroupRec :=
  { state := .active, depth := .d0, target := none, deepest := .d0, tNap := 0, tRetain := 0, tOff := 0, idle := 0
    inFlight := 0, held := 0, forced := false, wakePending := false, retryUsed := false, coldExit := false
    wakeSub := none, timer := none, cause := none, content := none, faultReason := none
    counters := { toNap := 0, toRetain := 0, toOff := 0, wakes := 0, faults := 0, strays := 0 } }

/-- The record of a group other than the control group after a warm reset (R28). -/
def GroupRec.warm : GroupRec :=
  { GroupRec.cold with
    state := .waking, wakeSub := some .lines, depth := .off, coldExit := true, timer := some 4096
    counters := { toNap := 0, toRetain := 0, toOff := 0, wakes := 1, faults := 0, strays := 0 } }

/-- The command processor after a reset: its write list holds the four initial header writes alone (R146, R153, R187). -/
def CmdProc.justReset (c : CmdProc) : Prop :=
  c = { state := .idle, producerShadow := 0, consumerShadow := 0, irqEnable := 0, restartShadow := 0, cmdConsumer := 0
        reportProducer := 0, published := 0, epoch := 0, headerDone := false, outstanding := [], marks := []
        inHand := none, writeList := c.writeList, reMirror := false, fetchStale := false, orphan := false, lostSet := 0
        lostTotal := 0 }
    ∧ c.writeList.map CpWrite.kind = [.initial 0, .initial 1, .initial 2, .initial 3]

/-- The blocks as a reset leaves them, but for the groups, the generation and the command processor (R30, R41, R42, R52, R54,
R60, R65, R66, R68, R71, R82, R85, R88, R91, R100, R105, R115, R116, R120, R127, R133 to R137, R180, R184). The model's
choices: no wake line has a sample due (log entry 8), and a request that waits stays in its place at the upstream port,
also where the straps move the control block (log entry 15). -/
def State.resetBlocks (pins : ResetPins) (s u : State) : Prop :=
  u.straps = pins.straps ∧ u.partTime = 0
    ∧ u.timeouts = { entry := 128, exitNap := 8, exitRetain := 64, exitOff := 1024 }
    ∧ (∀ i : RegionNo, u.regions[i] =
        { valid := false, basePage := 0, pageCount := 1, policy := .keep, fill := none, mask := 0, readAllowed := false
          writeAllowed := false, lost := false })
    ∧ u.scrub = { queue := [], engine := .idle, cursorGroup := none, cursorRegion := none, cursorAddr := none }
    ∧ u.up = { s.up with next := 0 }
    ∧ u.au = { tracking := [], nextSeq := 0, responses := [], protocolPlace := none, controlAdmitted := 0
               controlDenied := 0 }
    ∧ (∀ q : ReqNo, u.requesters[q] =
        { enabled := true, mode := .ordered, quota := 16, control := decide (q = pins.straps.crq), halted := false
          outstanding := 0, held := 0, trapped := none, trapCount := 0, admitted := 0, denied := 0 })
    ∧ u.hold = { entries := [], high := 56, low := 40, backpressure := false, peak := 0 }
    ∧ (∀ e : ElemNo, u.ac.programme.elements[e] =
        { enabled := false, mask := 0, kindTest := .any, window := none, dataTest := none })
    ∧ (∀ c : ClassNo, u.ac.programme.classes[c] =
        { activity := true, wake := true, trap := false, prewake := 0
          terms := Vector.replicate 4 { enabled := false, a := 0, b := none, bNegated := false } })
    ∧ (∀ c : ClassNo, u.ac.counters[c] = ⟨0, 0, 0, 0, 0, 0, 0⟩)
    ∧ (∀ n : LineNo, u.slu.lines[n] =
        { deps := 0, threshold := .off, offLevel := .low, settle := 64, forced := false, state := .on, timer := none })
    ∧ (∀ g : GroupNo, u.slu.view[g] = none ∧ u.slu.waiting[g] = false)
    ∧ (∀ n : WakeNo, u.wlu[n] =
        { mode := .off, count := 1, groups := 0, armed := true, lastLevel := pins.wake[n], highRun := 0, lowRun := 0
          sampleDue := false })
    ∧ u.dp.takeReady = pins.ready ∧ (∀ k : SlotNo, u.dp.slots[k] = none) ∧ u.dp.forward = []
    ∧ u.dp.fetchPlace = none ∧ u.dp.scrubPlace = none ∧ u.dp.turn = .internal

/-! ## Codes -/

/-- The bytes from `first` on name the values in their order, and no other byte names one (12.2, 12.3). -/
def readsCodes {α : Type} (read : Byte → Option α) (first : Nat) (values : List α) : Prop :=
  ∀ b : Byte, read b = if first ≤ b.toNat then values[b.toNat - first]? else none

/-! ## What an event leaves -/

/-- The command processor `c` has become `d`: the notices of the list have been handed over, in its order, and mirrored changes
were made before, between and after them, and nothing else has happened to it (R151, R152, R186 to R188). `a` is the state
around it, and `draws` counts for the free value of log entry 1. What a mirrored change and a notice do, and what they come
to, `RingCommandsEndWithTheirReport` says. -/
inductive CmdProc.Reported (a : State) : CmdProc → List Notice → CmdProc → Prop
  | done (c : CmdProc) : Reported a c [] c
  | change {c d : CmdProc} {ns : List Notice} :
    Reported a (mirrorChange { a with cp := c }).cp ns d → Reported a c ns d
  | notice {c d : CmdProc} {ns : List Notice} (n : Notice) (draws : Nat) :
    Reported a (raiseNotice n { a with cp := c, freeDraws := draws }).cp ns d → Reported a c (n :: ns) d

/-- The notices of the list, and no others, have been handed over at an event of `s`, and mirrored changes have been made; the
command processor has changed by these alone. -/
def State.reports (s : State) (ns : List Notice) (u : State) : Prop := CmdProc.Reported s s.cp ns u.cp

/-- The notice has been handed over at an event of `s`, others perhaps before and after it. -/
def State.raises (s u : State) (n : Notice) : Prop := ∃ ns : List Notice, n ∈ ns ∧ s.reports ns u

/-- A mirror write waits in the write list, or is to be appended when the one that is set completes (R152). -/
def CmdProc.owesMirror (c : CmdProc) : Prop := c.reMirror = true ∨ ∃ w ∈ c.writeList, w.kind = .mirror

/-- The state differs only in the command processor and in the draws of the free value (log entry 1). -/
def State.withReports (s u : State) : State := { s with cp := u.cp, freeDraws := u.freeDraws }

/-- The record of a group at the start of a wake (R16). -/
def GroupRec.woken (r : GroupRec) (cold : Bool) : GroupRec :=
  { r with
    state := .waking, wakeSub := some .lines, wakePending := false, retryUsed := false, coldExit := cold
    counters := { r.counters with wakes := r.counters.wakes + 1 } }

/-- The record of a group that has sent EXIT (R17, R19). -/
def GroupRec.exiting (r : GroupRec) (t : Timeouts) : GroupRec :=
  { r with wakeSub := some .exiting, timer := some (exitTimeout t r.coldExit r.depth) }

/-- The line at an evaluation that finds its off condition failed: found OFF it settles, with its settle time loaded; an ON
or a SETTLING line stays as it is (R117, R118). -/
def SupplyLine.needed (l : SupplyLine) : SupplyLine :=
  if l.state = .off then { l with state := .settling, timer := some l.settle } else l

/-- The line at an evaluation, by whether its off condition holds; an ON or a SETTLING line goes OFF where it does, its timer
stopped (R117, R121). -/
def SupplyLine.evaluated (l : SupplyLine) (condition : Bool) : SupplyLine :=
  if condition = true then if l.state = .off then l else { l with state := .off, timer := none }
  else l.needed

/-- The supply line unit has been told the sleep view of a group: under the new view it has evaluated every line whose
dependency set contains the group, and no other (R116, R117); bit n of the set stands for group n (log entry 26). -/
def State.told (s : State) (g : GroupNo) (v : Option Sleep) : State :=
  let t : State := { s with slu := { s.slu with view := s.slu.view.set g v } }
  { t with slu := { t.slu with
    lines := s.slu.lines.map fun l => if l.deps.getLsbD g.val = true then l.evaluated (t.offCondition l) else l } }

/-- The LINE_STATE notices of the lines that go OFF as the supply line unit is told the view (R124). -/
def State.wentOff (s : State) (g : GroupNo) (v : Option Sleep) : List Notice :=
  (allLines.filter fun n => s.slu.lines[n].state != .off && (s.told g v).slu.lines[n].state == .off).map
    fun n => .lineState n .off s.slu.lines[n].offLevel

/-- A wake of a group has begun, its record at the start being `w`. Of the lines it depends on (bit n of a dependency set
standing for group n: log entry 26) one found OFF is SETTLING with its settle time loaded, and one found ON or SETTLING
stays as it is; the other lines are as they were. The group has sent EXIT if all the lines it depends on are ON, else it
waits for them (R16, R17, R116, R118, R120). -/
def State.wakeBegun (s u : State) (g : GroupNo) (w : GroupRec) : Prop :=
  u.slu.view = s.slu.view.set g none
    ∧ (∀ n : LineNo, u.slu.lines[n] = if s.lineNeeds g n = true then s.slu.lines[n].needed else s.slu.lines[n])
    ∧ (u.linesReady g = true → u.groups[g] = w.exiting s.timeouts ∧ u.slu.waiting = s.slu.waiting
        ∧ u.outputs = [.exit g w.coldExit])
    ∧ (u.linesReady g = false → u.groups[g] = w ∧ u.slu.waiting = s.slu.waiting.set g true ∧ u.outputs = [])

/-- Every waiting group whose lines are all ON has sent EXIT and waits no more; the others are as they were (R120). -/
def State.waitersServed (s u : State) : Prop :=
  ∀ g : GroupNo,
    (s.slu.waiting[g] = true ∧ u.linesReady g = true → u.slu.waiting[g] = false
        ∧ u.groups[g] = s.groups[g].exiting s.timeouts ∧ .exit g s.groups[g].coldExit ∈ u.outputs)
      ∧ (¬ (s.slu.waiting[g] = true ∧ u.linesReady g = true) → u.slu.waiting[g] = s.slu.waiting[g]
        ∧ u.groups[g] = s.groups[g])

/-- The record of a group that has become FAULTED, its notice raised (R22). -/
def GroupRec.faulted (r : GroupRec) (why : FaultReason) : GroupRec :=
  { r with
    state := .faulted, timer := none, target := none, wakeSub := none, forced := false, wakePending := false
    retryUsed := false, faultReason := some why, cause := none
    counters := { r.counters with faults := r.counters.faults + 1 } }

/-- Every group of a mask, bit n for group n (log entry 26), has taken a pre-wake, each by its state; the others are as they
were (R24, R97, R130, R171). A line that some woken group depends on settles where it was found OFF, and every other line
is as it was (R118); the views and the waiting set change for the woken groups alone (R116, R120). -/
def State.preWoken (s u : State) (mask : BitVec 16) : Prop :=
  let wakes := fun g : GroupNo => mask.getLsbD g.val = true ∧ g ≠ s.controlGroup ∧ s.groups[g].state = .asleep
  (∀ n : LineNo, ((∃ g : GroupNo, wakes g ∧ s.lineNeeds g n = true) → u.slu.lines[n] = s.slu.lines[n].needed)
      ∧ ((∀ g : GroupNo, wakes g → s.lineNeeds g n = false) → u.slu.lines[n] = s.slu.lines[n]))
  ∧ (∀ g : GroupNo, ¬ wakes g → u.slu.view[g] = s.slu.view[g] ∧ u.slu.waiting[g] = s.slu.waiting[g])
  ∧ ∀ g : GroupNo,
    let r := s.groups[g]
    (mask.getLsbD g.val = false ∨ g = s.controlGroup → u.groups[g] = r)
      ∧ (mask.getLsbD g.val = true → g ≠ s.controlGroup →
        (r.state = .active → u.groups[g] = { r with idle := 0 })
        ∧ (r.state = .draining → r.forced = false → u.groups[g] = { r with state := .active, target := none, idle := 0 })
        ∧ (r.state = .entering ∨ (r.state = .draining ∧ r.forced = true) → u.groups[g] = { r with wakePending := true })
        ∧ (r.state = .asleep → u.slu.view[g] = none
            ∧ (u.linesReady g = true → u.groups[g] = (r.woken (r.depth == .off)).exiting s.timeouts
                ∧ u.slu.waiting[g] = s.slu.waiting[g] ∧ .exit g (r.depth == .off) ∈ u.outputs)
            ∧ (u.linesReady g = false → u.groups[g] = r.woken (r.depth == .off) ∧ u.slu.waiting[g] = true))
        ∧ (r.state = .waking ∨ r.state = .scrubbing ∨ r.state = .faulted → u.groups[g] = r))

/-- No group in an unforced drain has a held entry, as in every state the part reaches (R7). -/
def State.drainsAreEmpty (s : State) : Prop :=
  ∀ g : GroupNo, s.groups[g].state = .draining → s.groups[g].forced = false → ∀ e ∈ s.hold.entries, e.group ≠ g

/-- The head of the scrub queue has left it: the engine serves the next group from the first byte of its first region, or
is IDLE (R42, R44, R45). -/
def State.scrubGoesOn (s u : State) (rest : List GroupNo) : Prop :=
  u.scrub.queue = rest
    ∧ (rest = [] → u.scrub.engine = .idle ∧ u.scrub.cursorGroup = none ∧ u.scrub.cursorRegion = none
        ∧ u.scrub.cursorAddr = none ∧ u.dp.scrubPlace = s.dp.scrubPlace)
    ∧ ∀ (h : GroupNo) (more : List GroupNo) (j : RegionNo) (f : BitVec 32), rest = h :: more → s.fills h j →
        (∀ i : RegionNo, i < j → ¬ s.fills h i) → s.regions[j].fill = some f →
        u.scrub.engine = .offered ∧ u.scrub.cursorGroup = some h ∧ u.scrub.cursorRegion = some j
          ∧ u.scrub.cursorAddr = some s.regions[j].firstByte
          ∧ u.dp.scrubPlace = some (scrubWrite f s.regions[j].firstByte)

/-- A transaction has been sent in the slot, `d` being the port without it (R133, R134, R137, R138). -/
def State.sent (s : State) (k : SlotNo) (source : SlotSource) (tx : Tx) (turn : Turn) (d : DownPort) : State :=
  { s with
    dp := { d with
      slots := d.slots.set k (some { source := source, kind := tx.kind, length := tx.length })
      takeReady := false, turn := turn }
    outputs := s.outputs ++ [.send k s.dp.generation tx] }

/-- The admission unit has answered a transaction that completed downstream: DONE with the data, or FAILED and none (R63,
R140). -/
def AdmissionUnit.completed (a : AdmissionUnit) (r : TrackRef) (result : MemResult) (data : Option (List Byte)) :
    AdmissionUnit :=
  { a with
    tracking := a.tracking.map fun x => if x.ref = r then
      { x with
        state := .answering, status := some (if result = .ok then .done else .failed)
        readData := if result = .ok then data else none } else x
    responses := a.responses ++ [.tracked r] }

/-- The class counters after a classified transaction has completed: an OK counts its bytes (R101). -/
def Classifier.counted (a : Classifier) (c : ClassNo) (tx : Tx) (result : MemResult) : Classifier :=
  if result = .ok then
    { a with counters := a.counters.set c (
      let k := a.counters[c]
      if tx.kind = .read then { k with readBytes := k.readBytes + BitVec.ofNat 32 (16 * tx.length) }
      else { k with writeBytes := k.writeBytes + BitVec.ofNat 32 (tx.enables.filter id).length }) }
  else a

/-- The oldest forward-queue entry, of the tracking entry `e`, has been sent in the slot (R138). -/
def State.sentForward (s : State) (k : SlotNo) (e : TrackEntry) (rest : List TrackRef) : State :=
  { s.sent k (.forward e.ref e.group) e.tx .internal { s.dp with forward := rest } with
    au := { s.au with
      tracking := s.au.tracking.map fun x => if x.ref = e.ref then { x with state := .inFlight } else x } }

/-- The backpressure flag after its test at an occupancy: on, it goes off at or below the low watermark; off, it comes on at
or above the high one (R82). -/
def HoldQueue.flagAt (h : HoldQueue) (n : Nat) : Bool :=
  if h.backpressure then decide (h.low < n) else decide (h.high ≤ n)

/-- The notice of that test: QUEUE_NORMAL where the flag goes off, QUEUE_HIGH where it comes on (R82). -/
def HoldQueue.noticesAt (h : HoldQueue) (n : Nat) : List Notice :=
  if h.backpressure = true ∧ n ≤ h.low then [.queueNormal n h.low]
  else if h.backpressure = false ∧ h.high ≤ n then [.queueHigh n h.high]
  else []

/-- The entry has left the hold queue, `rest` being the other held entries: the held counts are lowered and the backpressure
test is applied, whose notice and mirror write `u` holds (R79, R82). -/
def State.left (s u : State) (x : HoldEntry) (rest : List HoldEntry) : State :=
  { s.withReports u with
    hold := { s.hold with entries := rest, backpressure := s.hold.flagAt rest.length }
    requesters := s.requesters.set x.requester
      { s.requesters[x.requester] with held := s.requesters[x.requester].held - 1 }
    groups := s.groups.set x.group { s.groups[x.group] with held := s.groups[x.group].held - 1 } }

/-- A READY entry of the hold queue has moved to the tail of the forward queue (R78, R79, R100). -/
def State.moved (s u : State) (x : HoldEntry) (rest : List HoldEntry) : State :=
  { s.left u x rest with
    dp := { s.dp with forward := s.dp.forward ++ [x.ref] }
    au := { s.au with
      tracking := s.au.tracking.map fun y => if y.ref = x.ref then { y with state := .queued } else y }
    groups := s.groups.set x.group { s.groups[x.group] with
      held := s.groups[x.group].held - 1, inFlight := s.groups[x.group].inFlight + 1 }
    ac := { s.ac with counters := (s.ac.counters.set x.cls
      { s.ac.counters[x.cls] with forwarded := s.ac.counters[x.cls].forwarded + 1 }) } }

/-- An entry of the hold queue has been answered with the status: its tracking entry is ANSWERING, and the refused counter
of its class goes up, with the denied counter of its requester for DENIED (R64, R66, R79, R100). -/
def State.answeredHeld (s u : State) (x : HoldEntry) (st : Status) (rest : List HoldEntry) : State :=
  { s.left u x rest with
    au := { s.au with
      tracking := s.au.tracking.map fun y => if y.ref = x.ref then
        { y with state := .answering, status := some st, readData := none } else y
      responses := s.au.responses ++ [.tracked x.ref] }
    requesters := s.requesters.set x.requester
      { s.requesters[x.requester] with
        held := s.requesters[x.requester].held - 1
        denied := if st = .denied then s.requesters[x.requester].denied + 1 else s.requesters[x.requester].denied }
    ac := { s.ac with counters := (s.ac.counters.set x.cls
      { s.ac.counters[x.cls] with refused := s.ac.counters[x.cls].refused + 1 }) } }

/-- The hold queue's entries are now `entries`, the entry `x` waiting on in it, and its group, which is in no unforced drain,
has been asked for a wake where `ask` is true: a wake begins from ASLEEP, counted for the class of `x`; it becomes pending
in a forced drain or an entry; in the other states nothing happens (R24, R77, R102). -/
def State.waitsOn (s u : State) (x : HoldEntry) (entries : List HoldEntry) (ask : Bool) : Prop :=
  let r := s.groups[x.group]
  u = { s.withReports u with
      hold := { s.hold with entries := entries }
      groups := s.groups.set x.group u.groups[x.group]
      slu := u.slu, outputs := u.outputs
      ac := if ask = true ∧ r.state = .asleep then
          { s.ac with counters := (s.ac.counters.set x.cls
            { s.ac.counters[x.cls] with wakesCaused := s.ac.counters[x.cls].wakesCaused + 1 }) }
        else s.ac }
    ∧ if ask = true ∧ r.state = .asleep then s.wakeBegun u x.group (r.woken (r.depth == .off))
      else u.slu = s.slu ∧ u.outputs = s.outputs ∧ u.groups[x.group] =
        if ask = true ∧ (r.state = .entering ∨ r.state = .draining) then { r with wakePending := true } else r

/-- The requester's halt has ended, and it has no trapped entry (R111). -/
def State.unhalted (s : State) (q : ReqNo) : State :=
  { s with requesters := s.requesters.set q { s.requesters[q] with halted := false, trapped := none } }

/-! ## Writes of the command processor -/

/-- A write of one beat at an offset of the control block, whose first two bytes carry the word and are alone enabled
(R193). -/
def CpWrite.carriesWord (w : CpWrite) (p : Straps) (kind : WriteKind) (offset : Nat) (v : BitVec 16) : Prop :=
  ∃ d : List Byte, d.length = 14 ∧ w =
    { kind := kind
      tx := some { kind := .write, address := controlAddr p offset, length := 1
                   data := [v.extractLsb' 0 8, v.extractLsb' 8 8] ++ d
                   enables := [true, true] ++ List.replicate 14 false } }

/-- The two writes of a report that takes the slot of an index: its record, and the report producer after it (R151, R195). -/
def reportWrites (p : Straps) (i : BitVec 16) (r : Report) (ofCompletion : Bool) (ws : List CpWrite) : Prop :=
  ∃ w : CpWrite, w.carriesWord p (.publish (i + 1) ofCompletion) 0x20 (i + 1) ∧ ws =
    [{ kind := .record
       tx := some { kind := .write, address := controlAddr p (0xC00 + 32 * (i.toNat % 64)), length := 2
                    data := reportImage r, enables := List.replicate 32 true } }, w]

/-- The header that the command processor writes after a reset or at a control restart, of a state with that report
producer, command consumer and EPOCH (12.2, R153, R158). -/
def State.header (s : State) (cmdConsumer reportProducer epoch : BitVec 16) : List Byte :=
  headerImage cmdConsumer reportProducer epoch
    (statusImage s.hold.backpressure .idle s.groups (lineCodes s.slu.lines))

/-- The fetch place once the fetch test has been applied with the command processor `c`: in FETCHING, with the barrier of
the covering mark met, the place empty and no fetch downstream, the READ of the slot at the command consumer (R148, R154). -/
def State.fetchPlaceAfter (s : State) (c : CmdProc) : Option Tx :=
  match c.state, c.covering with
  | .fetching, some m =>
    if c.barrierMet m.seq = true ∧ s.dp.fetchPlace = none ∧ s.dp.isDown .cpFetch = false then some (c.fetchTx s.straps)
    else s.dp.fetchPlace
  | _, _ => s.dp.fetchPlace

/-- The command processor as the fetch test leaves it, found IDLE (R154): with no command pending it stays IDLE with none in
hand; else it is FETCHING, with the next command in hand, whose issuer is that of the covering mark (R148). -/
def CmdProc.fetchTested (c : CmdProc) : Prop :=
  (c.producerShadow = c.cmdConsumer ∨ c.covering = none → c.state = .idle ∧ c.inHand = none)
    ∧ ∀ m : Mark, c.covering = some m → c.producerShadow ≠ c.cmdConsumer →
      c.state = .fetching ∧ c.inHand = some { seq := c.cmdConsumer, issuer := m.requester }

/-! ## A request alone at the upstream port -/

/-- No lane's place holds a request. -/
def State.nothingWaits (s : State) : Prop := ∀ q : ReqNo, s.up.control[q] = none ∧ s.up.memory[q] = none

/-- The lane of a requester holds a request whose lane conditions hold (R52). -/
def State.openAt (s : State) (l : Lane) (q : ReqNo) : Prop :=
  ∃ r : Request, s.up.place l q = some r ∧ s.laneOf r = .isOpen

/-- The requests of the upstream port, a lane's place being emptied or filled. -/
def UpPort.withPlace (u : UpPort) (l : Lane) (q : ReqNo) (r : Option Request) : UpPort :=
  match l with
  | .control => { u with control := u.control.set q r }
  | .memory => { u with memory := u.memory.set q r }

/-- The state after the port has accepted the only request presented, of the requester (R52). -/
def State.accepted (s : State) (q : ReqNo) : State := { s with up := { s.up with next := q + 1 }, outputs := [] }

/-- The control lane takes a permitted WRITE of the requester with the tag (R51, R54, R55, R56). -/
def State.controlOpen (s : State) (q : ReqNo) (tag : Tag) : Prop :=
  s.nothingWaits ∧ s.au.protocolPlace = none ∧ s.au.tracking.length < 128 ∧ s.dp.forward.length < 16
    ∧ s.cp.headerDone = true ∧ s.track? ⟨q, tag⟩ = none ∧ s.requesters[q].enabled = true
    ∧ s.requesters[q].control = true

/-- As `controlOpen`, whatever the requester's enablement and control attribute. -/
def State.controlOpenBut (s : State) (q : ReqNo) (tag : Tag) : Prop :=
  s.nothingWaits ∧ s.au.protocolPlace = none ∧ s.au.tracking.length < 128 ∧ s.dp.forward.length < 16
    ∧ s.cp.headerDone = true ∧ s.track? ⟨q, tag⟩ = none

/-- The memory lane takes the request and its checks pass: it is classified for the group and the class, which has no
pre-wakes (R50, R53, R54, R55, R58). -/
def State.memoryAdmitted (s : State) (r : Request) (g : GroupNo) (c : ClassNo) : Prop :=
  s.nothingWaits ∧ r.isControl s.straps = false ∧ s.laneOf r = .isOpen ∧ s.protocolOk r = true
    ∧ s.groupOf r.address = some g ∧ s.requesters[r.requester].enabled = true ∧ s.regionRefuses r = false
    ∧ s.ac.programme.classify r.requester r.tx = c ∧ s.ac.programme.classes[c].prewake = 0

/-- The tracking entry of such a request, its state still to be given (R60, R61). -/
def State.freshEntry (s : State) (r : Request) (g : GroupNo) (c : ClassNo) : TrackEntry :=
  { ref := r.ref, seq := s.au.nextSeq, tx := r.tx, group := some g, control := false, cls := some c, state := .queued
    status := none, readData := none }

/-- An entry joins the tracking table, and the sequence counter goes up by 1 (R61). -/
def AdmissionUnit.withEntry (a : AdmissionUnit) (e : TrackEntry) : AdmissionUnit :=
  { a with tracking := a.tracking ++ [e], nextSeq := a.nextSeq + 1 }

/-- A requester one more of whose memory-lane requests has been admitted (R61, R66). -/
def Requester.admitting (q : Requester) : Requester :=
  { q with admitted := q.admitted + 1, outstanding := q.outstanding + 1 }

/-- A control-block access has been answered DENIED at admission, and the command processor is not told of it (R55, R56, R57,
R61, R66). -/
def State.controlDenied (s : State) (r : Request) : State :=
  let q := r.requester
  { s.accepted q with
    au := { s.au with
      tracking := s.au.tracking ++ [{ ref := r.ref, seq := s.au.nextSeq, tx := r.tx, group := some s.controlGroup
                                      control := true, cls := none, state := .answering, status := some .denied
                                      readData := none }]
      nextSeq := s.au.nextSeq + 1
      responses := s.au.responses ++ [.tracked r.ref]
      controlAdmitted := s.au.controlAdmitted + 1, controlDenied := s.au.controlDenied + 1 }
    requesters := s.requesters.set q
      { s.requesters[q] with admitted := s.requesters[q].admitted + 1, denied := s.requesters[q].denied + 1 } }

/-- A forwarded control-block WRITE, before the command processor has acted on it: its tracking entry is QUEUED, the control
group counts it, and its sequence number is outstanding (R57, R147). -/
def State.writeForwarded (s : State) (r : Request) : State :=
  let q := r.requester
  let g := s.controlGroup
  { s.accepted q with
    au := { s.au with
      tracking := s.au.tracking ++ [{ ref := r.ref, seq := s.au.nextSeq, tx := r.tx, group := some g, control := true
                                      cls := none, state := .queued, status := none, readData := none }]
      nextSeq := s.au.nextSeq + 1
      controlAdmitted := s.au.controlAdmitted + 1 }
    requesters := s.requesters.set q { s.requesters[q] with admitted := s.requesters[q].admitted + 1 }
    dp := { s.dp with forward := s.dp.forward ++ [r.ref] }
    groups := s.groups.set g { s.groups[g] with inFlight := s.groups[g].inFlight + 1 }
    cp := { s.cp with outstanding := s.cp.outstanding ++ [s.au.nextSeq] } }

/-! ## A ring command in hand -/

/-- The command processor waits for the fetch of the command in hand, and that fetch is downstream in the slot (R154). -/
def State.awaits (s : State) (k : SlotNo) (h : InHand) : Prop :=
  s.dp.find .cpFetch = some k ∧ s.cp.state = .fetching ∧ s.cp.inHand = some h ∧ s.cp.fetchStale = false

/-- The completion report of a command (R155, R163, R183). -/
def InHand.report (h : InHand) (tag : BitVec 16) (body : CmdBody) (result : Result) (detail time : BitVec 32) :
    CompletionReport :=
  { kind := body.kind, slotTag := tag, seq := h.seq, issuer := h.issuer, result := result, detail := detail
    time := time }

/-- The command in hand has ended with the report: it took a free report slot and is being posted, its writes followed by a
mirror write at most; or none is free, and it waits for one (R151, R155, R186). -/
def State.completed (s : State) (r : CompletionReport) : Prop :=
  s.cp.inHand.bind InHand.completion = some r
    ∧ ((s.cp.state = .posting ∧ ∃ pre ws post : List CpWrite, s.cp.writeList = pre ++ ws ++ post
          ∧ reportWrites s.straps (s.cp.reportProducer - 1) (.completion r) true ws ∧ ∀ w ∈ post, w.kind = .mirror)
      ∨ (s.cp.state = .waitSpace ∧ s.cp.freeReports = 0))

/-- What every ring command may change, whatever its kind, taken from `u`: the command processor, the slot its fetch was in
and the outputs of the event. The rest is as in `s`. -/
def State.afterCommand (s : State) (k : SlotNo) (u : State) : State :=
  { s with cp := u.cp, freeDraws := u.freeDraws, outputs := []
           dp := { s.dp with slots := s.dp.slots.set k none } }

/-- The command processor as a command begins: EXECUTING, the slot of the command in hand read; a mirrored change (R152, R154). -/
def State.executing (s : State) (h : InHand) : CmdProc :=
  (setCpState .executing { s with cp := { s.cp with inHand := some h } }).cp

/-- The command in hand has been executed, from its fetch to the posting of its report: the slot is read and the CP is
EXECUTING; the claim hands over the notices of the list, and no others; and after them (log entry 27) the completion asks for
a report slot (R154, R155, R163). Nothing else has happened to the command processor. -/
def State.ran (s : State) (r : CompletionReport) (ns : List Notice) (u : State) : Prop :=
  ∃ (h taken : InHand) (body : CmdBody) (b : CmdProc) (draws : Nat),
    s.cp.inHand = some h ∧ body.kind = r.kind ∧ taken = { h with fetched := some (r.slotTag, body) }
      ∧ CmdProc.Reported s (s.executing taken) ns b
      ∧ u.cp = (postCompletion r
          { s with cp := { b with inHand := some { taken with completion := some r } }, freeDraws := draws }).cp

/-- The command is executed and answers a next state: but for the end of the event it is `u`, in which the command in hand
has ended with the report, the notices of the list were handed over, and `effect` says what else has changed. -/
def State.executes (s : State) (k : SlotNo) (i : Instr) (r : CompletionReport) (ns : List Notice)
    (effect : State → State → Prop) : Prop :=
  ∃ u : State, exec i s = .next (finish u) ∧ u.completed r ∧ (s.afterCommand k s).ran r ns u
    ∧ effect (s.afterCommand k u) u

/-- The slot that spells a ring command: its tag, and its kind and argument bytes (12.3). -/
def ringBody : Instr → Option (BitVec 16 × CmdBody)
  | .nop t => some (t, .nop)
  | .setRegion t i p rd wr b n f m => some (t, .setRegion i p rd wr b n f m)
  | .clearRegion t i => some (t, .clearRegion i)
  | .clearLost t i => some (t, .clearLost i)
  | .setGroupPolicy t g d n r o => some (t, .setGroupPolicy g d n r o)
  | .forceDepth t g d => some (t, .forceDepth g d)
  | .wakeGroups t m => some (t, .wakeGroups m)
  | .recoverGroup t g => some (t, .recoverGroup g)
  | .setLine t n th lv deps st => some (t, .setLine n th lv deps st)
  | .forceLine t n a => some (t, .forceLine n a)
  | .setWakeLine t n m c gs => some (t, .setWakeLine n m c gs)
  | .setElement t i en k any lo hi hd pat mask reqs => some (t, .setElement i en k any lo hi hd pat mask reqs)
  | .setClass t c a w tr pw t0 t1 t2 t3 => some (t, .setClass c a w tr pw t0 t1 t2 t3)
  | .setRequester t q en m n ct => some (t, .setRequester q en m n ct)
  | .releaseTrap t q d => some (t, .releaseTrap q d)
  | .setQueueLimits t h l => some (t, .setQueueLimits h l)
  | .setTimeouts t e n r o => some (t, .setTimeouts e n r o)
  | .snapshot t c => some (t, .snapshot c)
  | _ => none

/-- The 64 bytes of a slot: its tag, its kind, and its arguments where 12.3 lays them; every other byte is 0. -/
def slotImage (tag : BitVec 16) (body : CmdBody) : List Byte :=
  let row := fun args : List Byte => le16 tag ++ [body.kind] ++ zeros 5 ++ args ++ zeros (56 - args.length)
  let term := fun t : TermArg => [t.enabled, t.elementA, t.hasB, t.elementB, t.bNegated, 0, 0, 0]
  match body with
  | .nop | .unknown _ => row []
  | .setRegion i p rd wr base count fill mask =>
    row ([i, p, rd, wr] ++ le32 base ++ le32 count ++ le32 fill ++ le16 mask)
  | .clearRegion i | .clearLost i | .recoverGroup i | .snapshot i => row [i]
  | .setGroupPolicy g d n r o => row ([g, d, 0, 0] ++ le32 n ++ le32 r ++ le32 o)
  | .forceDepth a b | .forceLine a b | .releaseTrap a b | .setQueueLimits a b => row [a, b]
  | .wakeGroups m => row (le16 m)
  | .setLine n t lv deps st => row ([n, t, lv, 0] ++ le16 deps ++ le16 st)
  | .setWakeLine n m c gs => row ([n, m, c, 0] ++ le16 gs)
  | .setElement i en k any lo hi hd pat mask reqs =>
    row ([i, en, k, any] ++ le32 lo ++ le32 hi ++ [hd, 0, 0, 0] ++ pat.toList ++ mask.toList ++ le16 reqs)
  | .setClass c a w t pre t0 t1 t2 t3 =>
    row ([c, a, w, t] ++ le16 pre ++ [0, 0] ++ term t0 ++ term t1 ++ term t2 ++ term t3)
  | .setRequester q en m n ct => row [q, en, m, n, ct]
  | .setTimeouts e n r o => row (le16 e ++ le16 n ++ le16 r ++ le16 o)

/-- Checks in their order: the first that fails refuses with its number; when none fails, the rest holds (R165). -/
def inOrder (refused : Nat → Prop) : List (Nat × Prop) → Prop → Prop
  | [], rest => rest
  | (n, fails) :: checks, rest => (fails → refused n) ∧ (¬ fails → inOrder refused checks rest)

end Sys2Proof.Machine
end

