-- ==== Sys2Proof/WellFormed.lean ====
section
/-! DEFINITION. WellFormed.lean: which commands an agent can send. A request record or a command slot with values out of
range is well formed: the part answers it (R54, R165). What is refused here is a term that is no event of its row. -/

namespace Sys2Proof

/-- A requester has one place in each of its two lanes, so one event finds at most two new requests of it (R49). -/
def atMostTwoEach (rs : List Request) : Bool :=
  (List.finRange 16).all fun q => decide ((rs.filter fun r => r.requester == q).length ≤ 2)

/-- A completion's read data is at most the 16 beats a transaction may have (R132). -/
def readDataFits : Option (List Byte) → Bool
  | some d => decide (d.length ≤ 256)
  | none => true

/-- A write of whole beats that stays in its page, with one enable for each byte (R47, R54). -/
def wholeBeats (offset length : Nat) (data : List Byte) (enables : List Bool) : Bool :=
  offset % 16 == 0 && decide (1 ≤ length) && decide (length ≤ 16) && decide (offset % 4096 + 16 * length ≤ 4096)
    && data.length == 16 * length && enables.length == 16 * length

/-- No enabled byte lies in one of the four watched words (12.2): bytes 0, 1, 4, 5 and 8 to 15. -/
def sparesWatchedWords (offset : Nat) (enables : List Bool) : Bool :=
  (List.range 16).all fun i =>
    !(decide (offset ≤ i) && enables.getD (i - offset) false
        && (decide (i ≤ 1) || (decide (4 ≤ i) && decide (i ≤ 5)) || decide (8 ≤ i)))

/-- The command is an event of its row. -/
def Instr.wellFormed : Instr → Bool
  | .admission rs => atMostTwoEach rs
  | .completion _ _ _ d => readDataFits d
  | .cmdProducer _ _ _ en => en != 0
  | .reportConsumer _ _ _ en => en != 0
  | .irqEnable _ _ _ en => en != 0
  | .restartRequest _ _ _ en => en != 0
  | .controlBlockWrite _ _ offset length data enables =>
    wholeBeats offset.toNat length data enables && sparesWatchedWords offset.toNat enables
  | _ => true

end Sys2Proof
end

