-- ==== Sys2Proof/Certificates/Slice0/Obligations.lean ====
section
/-! DEFINITION. Certificates/Slice0/Obligations.lean: the statements about the model. Where a statement ends in
`.next (finish u)`, `u` is the state before the part's turn at the end of the event (`EndOfEventSendsOneTransaction`
says what that turn does), and the statement says what `u` is. -/

open Sys2Proof Sys2Proof.Machine

/-! ## Steps -/

/-- A step takes the front command and executes it on the state with the queue's rest. -/
def Obligations.StepRunsFrontCommand : Prop :=
  ∀ (c : Instr) (rest : List Instr) (s : State), step (s.setPending (c :: rest)) = exec c (s.setPending rest)

/-- No command stops the part, and none touches the queue. -/
def Obligations.EveryCommandCompletes : Prop :=
  ∀ (c : Instr) (s : State), ∃ t : State, exec c s = .next t ∧ t.pending = s.pending

/-! ## Resets -/

/-- `State.reset` has the value the spec gives for reset in every field it gives one for: a cold reset's values in every
block, and the initial header write in the write list, its first part set in the CP write place (R3, R30, R41, R42, R52,
R60, R65, R66, R68, R71, R82, R85, R88, R91, R100, R105, R115, R116, R120, R127, R133 to R137, R146, R153, R180, R184,
R187). The pins (log entry 2), and that no wake line has a sample due (log entry 8), are the model's choices. -/
def Obligations.ResetStateHasTheSpecsValues : Prop :=
  State.resetBlocks Config.powerUpPins State.reset State.reset
    ∧ (∀ g : GroupNo, State.reset.groups[g] = GroupRec.cold)
    ∧ State.reset.dp.generation = 0 ∧ State.reset.cp.justReset
    ∧ State.reset.dp.writePlace = (State.reset.cp.writeList.head?.bind CpWrite.tx)

/-- `State.reset` meets the laws of every state that the steps keep: the control group, the forward and hold queues, the
tracking table, the supply lines and sleep views, the control requesters, the regions, the scrub queue, the rings, the
places of the transactions, the held and in-flight counts, KEEP groups, and READY entries. The pins of `State.reset` are
the model's choice (log entry 2); `ResetsGiveTheirValues` takes them at every value. -/
def Obligations.ResetMeetsTheLaws : Prop :=
  State.reset.controlAwake ∧ State.reset.forwardFits ∧ State.reset.holdFits ∧ State.reset.trackingFits
    ∧ State.reset.tagsDiffer ∧ State.reset.suppliesHold ∧ State.reset.suppliesSleep ∧ State.reset.controlLeft
    ∧ State.reset.regionsApart ∧ State.reset.ringsFit ∧ State.reset.placesAgree ∧ State.reset.heldCountsAgree
    ∧ State.reset.viewsAgree ∧ State.reset.scrubAgrees ∧ State.reset.keepStays ∧ State.reset.flightsAgree
    ∧ State.reset.readyInOrder

/-- COLD_RESET and WARM_RESET from any state. A cold reset gives every group its cold-reset record and makes the generation
0; a warm reset gives every group but the control group the record of R28 and raises the generation by 1. The write list
holds the initial header, in four writes of 256 bytes; a header holds its words and its status part at the offsets of
12.2, with the codes of its table, and every other byte of it is 0 (R153, R192, R193, R195). The model's choices: no wake
line has a sample due after a reset (log entry 8), and a request that waits stays in its place at the upstream port, also
where the straps move the control block (log entry 15). -/
def Obligations.ResetsGiveTheirValues : Prop :=
  (∀ (pins : ResetPins) (s : State),
    let header := fun u : State => ([0, 1, 2, 3] : List (Fin 4)).map fun i =>
      ({ kind := .initial i
         tx := some { kind := .write, address := controlAddr pins.straps (256 * i.val), length := 16
                      data := ((u.header 0 0 0).drop (256 * i.val)).take 256
                      enables := List.replicate 256 true } } : CpWrite)
    (∃ u : State, exec (.coldReset pins) s = .next (finish u) ∧ State.resetBlocks pins s u
        ∧ (∀ g : GroupNo, u.groups[g] = GroupRec.cold) ∧ u.dp.generation = 0 ∧ u.cp.justReset
        ∧ u.cp.writeList = header u
        ∧ u.dp.writePlace = (u.cp.writeList.head?.bind CpWrite.tx) ∧ u.outputs = [])
      ∧ (∃ u : State, exec (.warmReset pins) s = .next (finish u) ∧ State.resetBlocks pins s u
        ∧ (∀ g : GroupNo, u.groups[g] = if g = pins.straps.cgs then GroupRec.cold else GroupRec.warm)
        ∧ u.dp.generation = s.dp.generation + 1 ∧ u.cp.justReset ∧ u.cp.writeList = header u
        ∧ u.dp.writePlace = (u.cp.writeList.head?.bind CpWrite.tx) ∧ u.outputs = []))
    ∧ (∀ (cmdConsumer reportProducer epoch : BitVec 16) (status : List Byte), status.length = 48 →
      let h := headerImage cmdConsumer reportProducer epoch status
      h.length = 1024 ∧ wordAt16 h 0x10 = cmdConsumer ∧ wordAt16 h 0x20 = reportProducer
        ∧ wordAt16 h 0x30 = 0x0A16 ∧ wordAt16 h 0x32 = 1 ∧ wordAt16 h 0x34 = epoch
        ∧ (h.drop 0x40).take 48 = status
        ∧ ∀ o : Nat, o < 1024 → o ∉ [0x10, 0x11, 0x20, 0x21, 0x30, 0x31, 0x32, 0x33, 0x34, 0x35] →
          o < 0x40 ∨ 0x70 ≤ o → byteAt h o = 0)
    ∧ (∀ (backpressure : Bool) (cp : CpState) (groups : Vector GroupRec 16) (lines : Vector SupplyLine 8),
      let b := statusImage backpressure cp groups (lineCodes lines)
      b.length = 48 ∧ byteAt b 0 = flagCode backpressure ∧ byteAt b 1 = cpStateCode cp
        ∧ (∀ g : GroupNo, (wordAt16 b 2).getLsbD g.val = decide (groups[g].state = .faulted))
        ∧ (∀ g : GroupNo, byteAt b (0x10 + g.val) = groupStateCode groups[g].state + 16 * depthCode groups[g].depth)
        ∧ (∀ n : LineNo, byteAt b (0x20 + n.val) = lineStateCode lines[n].state + 16 * levelCode lines[n].output)
        ∧ ∀ o : Nat, (4 ≤ o ∧ o < 0x10) ∨ 0x28 ≤ o → byteAt b o = 0)
    ∧ [.idle, .fetching, .executing, .posting, .waitSpace, .errorStop].map cpStateCode = [0, 1, 2, 3, 4, 5]
    ∧ [.active, .draining, .entering, .asleep, .waking, .scrubbing, .faulted].map groupStateCode = [0, 1, 2, 3, 4, 5, 6]
    ∧ [.on, .settling, .off].map lineStateCode = [0, 1, 2]
    ∧ [.d0, .nap, .retain, .off].map depthCode = [0, 1, 2, 3] ∧ [.low, .high].map levelCode = [0, 1]
    ∧ [false, true].map flagCode = [0, 1]

/-! ## Laws of every state (each holds at `State.reset` by `ResetMeetsTheLaws`) -/

/-- Every step keeps the control group ACTIVE at D0 (R2). -/
def Obligations.ControlGroupStaysActive : Prop :=
  ∀ s t : State, s.controlAwake → step s = .next t → t.controlAwake

/-- Every step keeps the forward queue within its 16 places (R135), the tracking table within 128 entries, 124 of memory-lane
traffic, and requester and tag distinct among them (R60). -/
def Obligations.TablesStayWithinTheirPlaces : Prop :=
  (∀ s t : State, s.forwardFits → step s = .next t → t.forwardFits)
    ∧ (∀ s t : State, s.trackingFits → step s = .next t → t.trackingFits)
    ∧ (∀ s t : State, s.tagsDiffer → step s = .next t → t.tagsDiffer)

/-- Every step keeps the hold queue within its 64 places, its watermarks legal, and backpressure on at or above the high
watermark (R82, R84). -/
def Obligations.HoldQueueStaysWithin64 : Prop :=
  ∀ s t : State, s.holdFits → step s = .next t → t.holdFits

/-- After every step a line at its off level meets its off condition, and a line that meets it is OFF (R117); and the supply
line unit's view of each group is its depth while it is ASLEEP, else "not asleep" (R116), given the law of the scrub
queue. -/
def Obligations.OffLinesKeepTheirCondition : Prop :=
  (∀ s t : State, s.suppliesHold → step s = .next t → t.suppliesHold)
    ∧ (∀ s t : State, s.suppliesSleep → step s = .next t → t.suppliesSleep)
    ∧ (∀ s t : State, s.scrubAgrees → s.viewsAgree → step s = .next t → t.viewsAgree)

/-- After every step some enabled requester has the control attribute (R178). -/
def Obligations.ControlRequesterRemains : Prop :=
  ∀ s t : State, s.controlLeft → step s = .next t → t.controlLeft

/-- Every step keeps the valid regions apart from one another and from the control block, each within one group (R31); the
scrub queue the list of the SCRUBBING groups, with its engine at the head (R41, R42); and, given the law of the scrub
queue, a group with a KEEP region away from OFF (R12, R35). -/
def Obligations.RegionsStayApart : Prop :=
  (∀ s t : State, s.regionsApart → step s = .next t → t.regionsApart)
    ∧ (∀ s t : State, s.scrubAgrees → step s = .next t → t.scrubAgrees)
    ∧ (∀ s t : State, s.scrubAgrees → s.keepStays → step s = .next t → t.keepStays)

/-- Every step keeps the pending commands at 32 or fewer and the unconsumed reports at 64 or fewer (R148, R186). -/
def Obligations.RingsStayWithinBounds : Prop :=
  ∀ s t : State, s.ringsFit → step s = .next t → t.ringsFit

/-- After every step each transaction is in the one place its tracking entry's state names (R62); and, given this and the
laws of the control group, the held counts and the scrub queue, every group's in-flight count is the number of its
transactions in the forward queue and in slots, and is 0 outside ACTIVE and DRAINING (R9, R142), with a READY entry's
group ACTIVE (R78). -/
def Obligations.TransactionsStayInOnePlace : Prop :=
  (∀ s t : State, s.placesAgree → step s = .next t → t.placesAgree)
    ∧ (∀ s t : State, s.controlAwake → s.placesAgree → s.heldCountsAgree → s.scrubAgrees → s.flightsAgree →
      step s = .next t → t.flightsAgree)

/-- Every step keeps the held counts right, and an unforced drain without held entries (R7, R73, R79), given that every
transaction is in its place; and of an ORDERED requester's held entries only the oldest READY (R75). -/
def Obligations.HeldCountsStayRight : Prop :=
  (∀ s t : State, s.placesAgree → s.heldCountsAgree → step s = .next t → t.heldCountsAgree)
    ∧ (∀ s t : State, s.readyInOrder → step s = .next t → t.readyInOrder)

/-! ## The end of an event -/

/-- The end of an event, in the order of log entry 10: a waiting write other than a mirror write is set in the CP write place, the
arbiter acts, and what then waits is set, a mirror write being built as the state stands (R150, R152, R193). Frame: what
it cannot change; without readiness it changes the CP write place alone (R133). The arbiter (R136 to R138): without
readiness, a free credit or anything to send nothing is sent. Else an internal offer is sent in the lowest free slot when
the forward queue is empty or the turn is INTERNAL, the CP write place before the fetch place before the scrub place, a
write that waits to be set counting as set; else the head of the forward queue. The flag becomes 0 and the turn the other.
The send of the write that publishes a completion ends POSTING: the command consumer goes up by 1, its mark is dropped,
the CMD_CONSUMER write is appended, ahead of a mirror write of the change to IDLE, which is the model's choice (log entry
27) and which is appended where none is in the list (R152), and the fetch test applied (R156, R154). The send of a forward-queue entry lets READY entries move, oldest first, into
free places (R78). -/
def Obligations.EndOfEventSendsOneTransaction : Prop :=
  (∀ s : State,
    ((finish s).straps = s.straps ∧ (finish s).partTime = s.partTime ∧ (finish s).timeouts = s.timeouts
        ∧ (finish s).regions = s.regions ∧ (finish s).up = s.up ∧ (finish s).wlu = s.wlu
        ∧ (finish s).pending = s.pending ∧ (finish s).ac.programme = s.ac.programme
        ∧ (finish s).dp.generation = s.dp.generation ∧ (finish s).au.nextSeq = s.au.nextSeq
        ∧ (finish s).au.protocolPlace = s.au.protocolPlace ∧ (finish s).scrub.queue = s.scrub.queue
        ∧ (∀ g : GroupNo, (finish s).groups[g].deepest = s.groups[g].deepest
            ∧ (finish s).groups[g].tNap = s.groups[g].tNap ∧ (finish s).groups[g].tRetain = s.groups[g].tRetain
            ∧ (finish s).groups[g].tOff = s.groups[g].tOff))
      ∧ (s.dp.takeReady = false → ∃ p : Option Tx, finish s = { s with dp := { s.dp with writePlace := p } }))
    ∧ (∀ s a : State,
      (s.wantsWrite = true ↔ s.dp.writePlace = none ∧ s.cp.writeList ≠ []
          ∧ ∀ k : SlotNo, s.dp.slots[k].map Slot.source ≠ some .cpWrite)
        ∧ (s.cp.writeList = [] → setWrite s = s)
        ∧ (∀ (w : CpWrite) (ws : List CpWrite), s.cp.writeList = w :: ws →
          let mirror : Tx :=
            { kind := .write, address := controlAddr s.straps 0x40, length := 3
              data := statusImage s.hold.backpressure s.cp.state s.groups (lineCodes s.slu.lines)
              enables := List.replicate 48 true }
          setWrite s = { s with
            dp := { s.dp with writePlace := if w.kind = .mirror then some mirror else w.tx } })
        ∧ (a = (if s.wantsWrite = true ∧ s.cp.writeList.head?.map CpWrite.kind ≠ some .mirror then setWrite s else s) →
            finish s = if (arbitrate a).wantsWrite = true then setWrite (arbitrate a) else arbitrate a))
    ∧ (∀ (s : State) (k : SlotNo),
      let internal := s.dp.forward = [] ∨ s.dp.turn = .internal
      let offers := s.dp.writePlace ≠ none ∨ s.dp.fetchPlace ≠ none ∨ s.dp.scrubPlace ≠ none ∨ s.wantsWrite = true
      (s.dp.takeReady = false ∨ s.dp.freeSlot = none ∨ (¬ offers ∧ s.dp.forward = []) → arbitrate s = s)
        ∧ (s.dp.freeSlot = some k ↔ s.dp.slots[k] = none ∧ ∀ j : SlotNo, j < k → s.dp.slots[j] ≠ none)
        ∧ (s.hold.oldestReady? = none ↔ ∀ x ∈ s.hold.entries, x.state ≠ .ready)
        ∧ (s.cp.postsNow = true ↔ s.cp.state = .posting
            ∧ ∃ v : BitVec 16, s.cp.writeList.head?.map CpWrite.kind = some (.publish v true))
        ∧ (s.dp.takeReady = true → s.dp.freeSlot = some k →
          (internal → s.wantsWrite = true → arbitrate s = arbitrate (setWrite s))
            ∧ (∀ tx : Tx, internal → s.wantsWrite = false → s.dp.writePlace = some tx →
              let t := s.sent k .cpWrite tx .forward { s.dp with writePlace := none }
              let i := s.cp.cmdConsumer + 1
              (s.cp.postsNow = false → arbitrate s = t)
                ∧ (s.cp.postsNow = true → ∃ (u : State) (w : CpWrite), arbitrate s = u
                  ∧ u = { t.withReports u with dp := { t.dp with fetchPlace := t.fetchPlaceAfter u.cp } }
                  ∧ u.cp = { s.cp with
                      cmdConsumer := i, state := u.cp.state, inHand := u.cp.inHand
                      marks := if s.cp.marks.head?.map Mark.value = some i then s.cp.marks.tail else s.cp.marks
                      writeList := s.cp.writeList ++ [w]
                        ++ if ∃ x ∈ s.cp.writeList, x.kind = .mirror then [] else [{ kind := .mirror, tx := none }] }
                  ∧ u.cp.fetchTested ∧ w.carriesWord s.straps .cmdConsumer 0x10 i))
            ∧ (∀ tx : Tx, internal → s.wantsWrite = false → s.dp.writePlace = none → s.dp.fetchPlace = some tx →
              arbitrate s = s.sent k .cpFetch tx .forward { s.dp with fetchPlace := none })
            ∧ (∀ tx : Tx, internal → s.wantsWrite = false → s.dp.writePlace = none → s.dp.fetchPlace = none →
              s.dp.scrubPlace = some tx →
              arbitrate s = { s.sent k .scrub tx .forward { s.dp with scrubPlace := none } with
                scrub := { s.scrub with engine := .outstanding } })
            ∧ (∀ (r : TrackRef) (rs : List TrackRef) (e : TrackEntry), s.dp.forward = r :: rs → s.track? r = some e →
              s.dp.turn = .forward ∨ ¬ offers →
              let t := s.sentForward k e rs
              arbitrate s = claim [.moveReady] t
                ∧ (s.hold.oldestReady? = none → arbitrate s = t)
                ∧ (∀ x : HoldEntry, s.hold.entries = [x] → x.state = .ready → rs.length < 16 →
                  ∃ u : State, arbitrate s = u ∧ u = t.moved u x [])
                ∧ (∀ x y : HoldEntry, s.hold.entries = [x, y] → x.state = .ready → y.state = .ready → x.ref ≠ y.ref →
                  rs.length = 15 → ∃ u : State, arbitrate s = u ∧ u = t.moved u x [y]))))

/-! ## Memory path -/

/-- RESPONSE_TAKEN: the oldest response leaves the list and is given to the interconnect; its tracking entry is freed and, for an
entry that is no control-block access, the outstanding count goes down; a PROTOCOL response empties the protocol answer
place (R65). With no response the event cannot occur, and the command changes nothing: the model's choice (log entry 18).
TAKE_READY: the take-ready flag becomes 1, and the arbiter acts (R133, R137). -/
def Obligations.ResponsesAndReadinessAreTaken : Prop :=
  (∀ s : State,
    (s.au.responses = [] → exec .responseTaken s = .next (finish { s with outputs := [] }))
      ∧ (∀ (rest : List RespRef) (p : TrackRef), s.au.responses = .protocol :: rest → s.au.protocolPlace = some p →
          exec .responseTaken s = .next (finish { s with
            au := { s.au with responses := rest, protocolPlace := none }
            outputs := [.response p.requester p.tag .protocol none] }))
      ∧ (∀ (r : TrackRef) (rest : List RespRef) (e : TrackEntry) (st : Status),
          s.au.responses = .tracked r :: rest → s.track? r = some e → e.status = some st →
          exec .responseTaken s = .next (finish { s with
            au := { s.au with responses := rest, tracking := s.au.tracking.filter fun x => x.ref != r }
            requesters := if e.control then s.requesters else
              s.requesters.set r.requester
                { s.requesters[r.requester] with outstanding := s.requesters[r.requester].outstanding - 1 }
            outputs := [.response r.requester r.tag st e.readData] })))
    ∧ (∀ s : State, exec .takeReady s = .next (finish { s with dp := { s.dp with takeReady := true }, outputs := [] }))

/-- COMPLETION: a completion with another generation, for a free slot, or whose read data does not fit its slot is discarded:
it changes nothing; one that matches a slot in use frees it at the event (R139). -/
def Obligations.MismatchedCompletionIsDiscarded : Prop :=
  ∀ (s : State) (k : SlotNo) (gen : BitVec 8) (result : MemResult) (data : Option (List Byte)),
    ((s.dp.slots[k] = none ∨ gen ≠ s.dp.generation
        ∨ (∃ sl : Slot, s.dp.slots[k] = some sl ∧ result = .ok ∧ sl.kind = .write ∧ data ≠ none)
        ∨ (∃ sl : Slot, s.dp.slots[k] = some sl ∧ result = .ok ∧ sl.kind = .read
            ∧ ∀ d : List Byte, data = some d → d.length ≠ 16 * sl.length)) →
      exec (.completion k gen result data) s = .next (finish { s with outputs := [] }))
    ∧ (∀ sl : Slot, s.dp.slots[k] = some sl → gen = s.dp.generation →
        (result = .ok → sl.kind = .write → data = none) →
        (result = .ok → sl.kind = .read → ∃ d : List Byte, data = some d ∧ d.length = 16 * sl.length) →
        ∃ u : State, exec (.completion k gen result data) s = .next (finish u)
          ∧ u.dp.slots = s.dp.slots.set k none)

/-- COMPLETION of a forwarded transaction of the memory lane, whose group is not draining or has more in flight: the slot is
free, the entry is ANSWERING with DONE and the data, or FAILED and none; the group's in-flight count goes down by 1, and a
group that drains goes on draining; an OK counts its bytes for the class; and nothing else changes (R7, R8, R9, R63, R101,
R140). The last completion of a drain is `LastCompletionEndsTheDrain`'s. -/
def Obligations.ForwardedCompletionAnswers : Prop :=
  ∀ (s : State) (k : SlotNo) (g : GroupNo) (c : ClassNo) (e : TrackEntry) (result : MemResult) (data : Option (List Byte)),
    s.dp.slots[k] = some { source := .forward e.ref (some g), kind := e.tx.kind, length := e.tx.length } →
    s.track? e.ref = some e → e.control = false → e.cls = some c →
    (s.groups[g].state = .draining → 1 < s.groups[g].inFlight) →
    (result = .ok → e.tx.kind = .read → ∃ d : List Byte, data = some d ∧ d.length = 16 * e.tx.length) →
    (result = .ok → e.tx.kind = .write → data = none) →
      exec (.completion k s.dp.generation result data) s = .next (finish { s with
        dp := { s.dp with slots := s.dp.slots.set k none }
        au := s.au.completed e.ref result data
        groups := s.groups.set g { s.groups[g] with inFlight := s.groups[g].inFlight - 1 }
        ac := s.ac.counted c e.tx result
        outputs := [] })

/-- COMPLETION of the last transaction of a draining group: with OK or with ERROR, the count falls to 0, ENTER is sent for the
target depth, the group is ENTERING and its timer takes the entry timeout; the entry is answered DONE with the data, or
FAILED and none, and an OK counts its bytes for the class; and nothing else changes (R7, R8, R9, R12, R63, R101, R140). -/
def Obligations.LastCompletionEndsTheDrain : Prop :=
  ∀ (s : State) (k : SlotNo) (g : GroupNo) (d : Sleep) (e : TrackEntry) (result : MemResult) (data : Option (List Byte)),
    s.dp.slots[k] = some { source := .forward e.ref (some g), kind := e.tx.kind, length := e.tx.length } →
    s.track? e.ref = some e → s.groups[g].state = .draining → s.groups[g].target = some d →
    s.groups[g].inFlight = 1 →
    (result = .ok → e.tx.kind = .read → ∃ b : List Byte, data = some b ∧ b.length = 16 * e.tx.length) →
    (result = .ok → e.tx.kind = .write → data = none) →
      ∃ u : State, exec (.completion k s.dp.generation result data) s = .next (finish u)
        ∧ u.groups = s.groups.set g
            { s.groups[g] with inFlight := 0, state := .entering, timer := some s.timeouts.entry }
        ∧ u.outputs = [.enter g d] ∧ u.dp.slots = s.dp.slots.set k none
        ∧ u.au = s.au.completed e.ref result data
        ∧ u.slu = s.slu ∧ u.hold = s.hold ∧ u.regions = s.regions ∧ u.requesters = s.requesters
        ∧ (∀ c : ClassNo, e.cls = some c → u.ac = s.ac.counted c e.tx result) ∧ (e.cls = none → u.ac = s.ac)
        ∧ (e.control = false →
            u = { s.withReports u with
              dp := { s.dp with slots := s.dp.slots.set k none }
              au := u.au, groups := u.groups, ac := u.ac, outputs := u.outputs }
            ∧ s.reports [] u)

/-- COMPLETION of a control-block access: answered DONE or FAILED, and whatever the result its sequence number leaves the
outstanding control writes (R140, R148); a fetch that waits for its barrier is offered where that is now met (R154). -/
def Obligations.ControlAccessCompletes : Prop :=
  ∀ (s : State) (k : SlotNo) (g : GroupNo) (e : TrackEntry) (result : MemResult) (data : Option (List Byte)),
    s.dp.slots[k] = some { source := .forward e.ref (some g), kind := e.tx.kind, length := e.tx.length } →
    s.track? e.ref = some e → e.control = true → e.cls = none → s.groups[g].state = .active →
    (result = .ok → e.tx.kind = .read → ∃ d : List Byte, data = some d ∧ d.length = 16 * e.tx.length) →
    (result = .ok → e.tx.kind = .write → data = none) →
      let c := { s.cp with outstanding := s.cp.outstanding.filter fun q => q != e.seq }
      exec (.completion k s.dp.generation result data) s = .next (finish { s with
        dp := { s.dp with slots := s.dp.slots.set k none, fetchPlace := s.fetchPlaceAfter c }
        au := s.au.completed e.ref result data
        groups := s.groups.set g { s.groups[g] with inFlight := s.groups[g].inFlight - 1 }
        cp := c
        outputs := [] })

/-- COMPLETION of a command processor transaction. The CP write at the head of the write list leaves it at an OK: a REPORT_PRODUCER
write, and the first restart write, make the published producer their value, the fourth initial header write sets header
done, a mirror write with re-mirror pending appends a new one; the others do no more, but for the payload write that ends
a SNAPSHOT (R150 to R153, R158, R190). A CP write that had left the list is discarded at an OK (R159). At an ERROR of a
write or a fetch the CP enters ERROR_STOP: its offers are withdrawn, its write list is emptied, a CP write still
downstream has left it, re-mirror pending becomes 1, the command in hand is kept, and IRQ_N is driven low (R141, R153,
R154, R157, R159). -/
def Obligations.CpTransactionsComplete : Prop :=
  (∀ (s : State) (k : SlotNo) (n : Nat) (w : CpWrite) (ws : List CpWrite),
    s.dp.slots[k] = some { source := .cpWrite, kind := .write, length := n } → s.cp.orphan = false →
    s.cp.writeList = w :: ws →
      let answer := fun c : CmdProc => exec (.completion k s.dp.generation .ok none) s = .next (finish { s with
        dp := { s.dp with slots := s.dp.slots.set k none }, cp := c, outputs := [] })
      (∀ (v : BitVec 16) (b : Bool), w.kind = .publish v b → answer { s.cp with writeList := ws, published := v })
        ∧ (∀ v : BitVec 16, w.kind = .restart 0 v → answer { s.cp with writeList := ws, published := v })
        ∧ (w.kind = .initial 3 → answer { s.cp with writeList := ws, headerDone := true })
        ∧ (w.kind = .mirror → s.cp.reMirror = true →
            answer { s.cp with writeList := ws ++ [{ kind := .mirror, tx := none }], reMirror := false })
        ∧ (w.kind = .mirror → s.cp.reMirror = false → answer { s.cp with writeList := ws })
        ∧ (w.kind = .record ∨ w.kind = .cmdConsumer → answer { s.cp with writeList := ws })
        ∧ ((∃ i : Fin 4, i ≠ 3 ∧ w.kind = .initial i) ∨ (∃ (i : Fin 4) (v : BitVec 16), i ≠ 0 ∧ w.kind = .restart i v)
            ∨ w.kind = .payload false ∨ (w.kind = .payload true ∧ s.cp.state ≠ .executing) →
          answer { s.cp with writeList := ws }))
    ∧ (∀ (s : State) (k : SlotNo) (n : Nat),
      s.dp.slots[k] = some { source := .cpWrite, kind := .write, length := n } → s.cp.orphan = true →
        exec (.completion k s.dp.generation .ok none) s = .next (finish { s with
          dp := { s.dp with slots := s.dp.slots.set k none }, cp := { s.cp with orphan := false }, outputs := [] }))
    ∧ (∀ (s : State) (k : SlotNo) (sl : Slot) (data : Option (List Byte)), s.dp.slots[k] = some sl →
    (sl.source = .cpFetch ∨ (sl.source = .cpWrite ∧ (s.cp.orphan = true ∨ s.cp.writeList ≠ []))) →
      ∃ u : State, exec (.completion k s.dp.generation .error data) s = .next (finish u)
        ∧ u = { s with
            dp := { s.dp with slots := s.dp.slots.set k none, writePlace := none, fetchPlace := none }
            cp := { s.cp with
              state := .errorStop, writeList := [], reMirror := true, orphan := u.cp.orphan
              headerDone := u.cp.headerDone, fetchStale := u.cp.fetchStale }
            outputs := [] }
        ∧ u.irqN = .low
        ∧ (u.cp.orphan = true ↔ ∃ j : SlotNo, j ≠ k ∧ s.dp.slots[j].map Slot.source = some .cpWrite)
        ∧ (sl.source = .cpFetch → u.cp.fetchStale = false ∧ u.cp.headerDone = s.cp.headerDone)
        ∧ (sl.source = .cpWrite → u.cp.fetchStale = s.cp.fetchStale
            ∧ (s.cp.orphan = true → u.cp.headerDone = s.cp.headerDone)
            ∧ (s.cp.orphan = false → u.cp.headerDone =
                (s.cp.headerDone || (s.cp.writeList.head?.map fun w => w.kind.isInitial).getD false))))

/-- COMPLETION of a scrub write. With OK and more of the region to fill, the engine offers the write of the next 256 bytes; at
the region's end it goes on to the group's next LOSE_FILL region; after the last one the group is ACTIVE with
GROUP_ACTIVE and leaves the scrub queue. With ERROR the group is FAULTED with SCRUB_FAILED, leaves the queue and
GROUP_FAULT is raised. In both cases the engine serves the next group, or is IDLE where none waits (R20, R22, R43, R44,
R45, R141). -/
def Obligations.ScrubWriteCompletes : Prop :=
  ∀ (s : State) (k : SlotNo) (n : Nat) (g : GroupNo) (i : RegionNo) (a : Addr) (f : BitVec 32),
    s.dp.slots[k] = some { source := .scrub, kind := .write, length := n } →
    s.scrub.cursorGroup = some g → s.scrub.cursorRegion = some i → s.scrub.cursorAddr = some a →
    s.regions[i].fill = some f →
      let more := a.toNat + 256 < (s.regions[i].basePage + s.regions[i].pageCount) * 4096
      let ok := exec (.completion k s.dp.generation .ok none) s
      (more →
        ok = .next (finish { s with
          scrub := { s.scrub with engine := .offered, cursorAddr := some (a + 256) }
          dp := { s.dp with
            slots := s.dp.slots.set k none
            scrubPlace := some { kind := .write, address := a + 256, length := 16
                                 data := (List.replicate 64 (le32 f)).flatten, enables := List.replicate 256 true } }
          outputs := [] }))
      ∧ (¬ more → ∀ (j : RegionNo) (h : BitVec 32), i < j → s.fills g j →
          (∀ x : RegionNo, i < x → x < j → ¬ s.fills g x) → s.regions[j].fill = some h →
        let first : Addr := BitVec.ofNat 34 (s.regions[j].basePage * 4096)
        ok = .next (finish { s with
          scrub := { s.scrub with engine := .offered, cursorRegion := some j, cursorAddr := some first }
          dp := { s.dp with slots := s.dp.slots.set k none, scrubPlace := some (scrubWrite h first) }
          outputs := [] }))
      ∧ (¬ more → (∀ x : RegionNo, i < x → ¬ s.fills g x) → ∀ rest : List GroupNo, s.scrub.queue = g :: rest →
          (∀ e ∈ s.hold.entries, e.group ≠ g) →
        ∃ u : State, ok = .next (finish u)
          ∧ u = { s.withReports u with
              groups := s.groups.set g { s.groups[g] with
                state := .active, wakeSub := none, retryUsed := false, idle := 0, cause := none }
              scrub := u.scrub
              dp := { s.dp with slots := s.dp.slots.set k none, scrubPlace := u.dp.scrubPlace }
              outputs := [] }
          ∧ s.scrubGoesOn u rest ∧ s.reports [.groupActive g s.groups[g].content s.groups[g].cause] u)
      ∧ (∀ (data : Option (List Byte)) (rest : List GroupNo), s.scrub.queue = g :: rest →
          (∀ e ∈ s.hold.entries, e.group ≠ g) →
        ∃ u : State, exec (.completion k s.dp.generation .error data) s = .next (finish u)
          ∧ u = { s.withReports u with
              groups := s.groups.set g (s.groups[g].faulted .scrubFailed)
              scrub := u.scrub
              dp := { s.dp with slots := s.dp.slots.set k none, scrubPlace := u.dp.scrubPlace }
              outputs := [] }
          ∧ s.scrubGoesOn u rest ∧ s.reports [.groupFault g s.groups[g].depth .scrubFailed s.groups[g].cause] u)

/-! ## Admission -/

/-- ADMISSION of a request that is not let in. One whose lane's conditions do not hold is answered nothing and waits in its place
(R49); one that breaks a protocol check is answered PROTOCOL in the protocol answer place and gets no tracking entry
(R53, R54, R65); one beyond installed memory, of a disabled requester, or refused by its region is answered DENIED, in
either lane (R55, R58, R33, R66). The lane is that of the address; it is OPEN when its conditions hold, else STALLED with the
first unmet one (R49, R50, R51). The groups, installed memory and the control block lie where strap GSZ and CGS place them
(R1, R2, R145). The lookup finds the lowest-numbered valid region that holds the page, and the region
refuses a requester outside its mask and a kind it does not allow (R32, R33). Of several requests that wait, the
port accepts one: the first acceptable in rotating order from the requester after the last accepted, the control
lane first, as it would accept that request presented alone; with none acceptable nothing happens (R52). Requests are
presented one after another, each in its lane's empty place: the model's choice (log entry 4). Bit n of a region's mask
stands for requester n: the model's reading (log entry 26). -/
def Obligations.RefusedRequestsAreAnswered : Prop :=
  (∀ (s : State) (r : Request), s.nothingWaits → s.laneOf r ≠ .isOpen →
    exec (.admission [r]) s = .next (finish { s with
      up := if r.isControl s.straps then { s.up with control := s.up.control.set r.requester (some r) }
        else { s.up with memory := s.up.memory.set r.requester (some r) }
      outputs := [] }))
    ∧ (∀ (s : State) (r : Request), s.nothingWaits → s.laneOf r = .isOpen →
    (r.address.toNat % 16 ≠ 0 ∨ r.length < 1 ∨ 16 < r.length ∨ 4096 < r.address.toNat % 4096 + 16 * r.length
      ∨ (r.kind = .write ∧ (r.data.length ≠ r.length * 16 ∨ r.enables.length ≠ r.length * 16))
      ∨ (r.kind = .read ∧ (r.data ≠ [] ∨ r.enables ≠ []))
      ∨ (∃ e ∈ s.au.tracking, e.ref = r.ref)) →
    exec (.admission [r]) s = .next (finish { s.accepted r.requester with
      au := { s.au with protocolPlace := some r.ref, responses := s.au.responses ++ [.protocol] } }))
    ∧ (∀ (s : State) (r : Request), s.nothingWaits → s.laneOf r = .isOpen → s.protocolOk r = true →
    r.isControl s.straps = false →
    (s.groupOf r.address = none ∨ s.requesters[r.requester].enabled = false ∨ s.regionRefuses r = true) →
    exec (.admission [r]) s = .next (finish { s.accepted r.requester with
      au := { s.au with
        tracking := s.au.tracking ++ [{ ref := r.ref, seq := s.au.nextSeq, tx := r.tx, group := s.groupOf r.address
                                        control := false, cls := none, state := .answering, status := some .denied
                                        readData := none }]
        nextSeq := s.au.nextSeq + 1
        responses := s.au.responses ++ [.tracked r.ref] }
      requesters := s.requesters.set r.requester
        { s.requesters[r.requester] with
          admitted := s.requesters[r.requester].admitted + 1, outstanding := s.requesters[r.requester].outstanding + 1
          denied := s.requesters[r.requester].denied + 1 } }))
    ∧ (∀ (s : State) (r : Request), s.nothingWaits → s.laneOf r = .isOpen → s.protocolOk r = true →
    r.isControl s.straps = true → s.requesters[r.requester].enabled = false →
    exec (.admission [r]) s = .next (finish (s.controlDenied r)))
    ∧ (∀ (s : State) (r : Request) (page : Nat) (i : RegionNo),
      let holds := fun j : RegionNo => s.regions[j].valid = true ∧ s.regions[j].basePage ≤ page
        ∧ page < s.regions[j].basePage + s.regions[j].pageCount
      (s.lookup page = some i ↔ holds i ∧ ∀ j : RegionNo, j < i → ¬ holds j)
        ∧ (s.lookup page = none ↔ ∀ j : RegionNo, ¬ holds j)
        ∧ (s.regionRefuses r = true ↔ ∃ j : RegionNo, s.lookup (r.address.toNat / 4096) = some j
          ∧ (s.regions[j].mask.getLsbD r.requester.val = false ∨ (r.kind = .read ∧ s.regions[j].readAllowed = false)
            ∨ (r.kind = .write ∧ s.regions[j].writeAllowed = false))))
    ∧ (∀ s : State,
      ((∀ q : ReqNo, ¬ s.openAt .control q ∧ ¬ s.openAt .memory q) →
          exec (.admission []) s = .next (finish { s with outputs := [] }))
        ∧ (∀ (i : ReqNo) (l : Lane) (r : Request),
          let q := s.up.next + i
          s.up.place l q = some r → s.laneOf r = .isOpen → (l = .memory → ¬ s.openAt .control q) →
          (∀ j : ReqNo, j < i → ¬ s.openAt .control (s.up.next + j) ∧ ¬ s.openAt .memory (s.up.next + j)) →
          r.requester = q → r.isControl s.straps = decide (l = .control) →
            ∃ u : State,
              exec (.admission [r]) { s with up := { next := s.up.next } } = .next (finish u)
                ∧ exec (.admission []) s =
                  .next (finish { u with up := { s.up.withPlace l q none with next := q + 1 } }))
        ∧ (∀ (r : Request) (rs : List Request),
          let l : Lane := if r.isControl s.straps then .control else .memory
          exec (.admission (r :: rs)) s = exec (.admission rs)
            (if s.up.place l r.requester = none then { s with up := s.up.withPlace l r.requester (some r) } else s)))
    ∧ (∀ (s : State) (r : Request),
      let memory := (s.au.tracking.filter fun e => !e.control).length
      let ready := (s.hold.entries.filter fun e => e.state == .ready).length
      let q := s.requesters[r.requester]
      let full := s.au.protocolPlace ≠ none
      (r.isControl s.straps = false → s.laneOf r =
          if full then .stalled .protocolPlace
          else if 124 ≤ memory ∨ 128 ≤ s.au.tracking.length then .stalled .trackingFull
          else if 16 ≤ s.dp.forward.length + ready then .stalled .forwardRoom
          else if s.hold.backpressure = true then .stalled .backpressure
          else if q.quota ≤ q.outstanding then .stalled .quota
          else .isOpen)
        ∧ (r.isControl s.straps = true → s.laneOf r =
          if full then .stalled .protocolPlace
          else if 128 ≤ s.au.tracking.length then .stalled .trackingFull
          else if 16 ≤ s.dp.forward.length then .stalled .forwardRoom
          else if r.kind = .write ∧ s.cp.headerDone = false then .stalled .headerPending
          else .isOpen)
        ∧ (s.protocolOk r = true ↔ r.address.toNat % 16 = 0 ∧ 1 ≤ r.length ∧ r.length ≤ 16
          ∧ r.address.toNat % 4096 + 16 * r.length ≤ 4096
          ∧ (r.kind = .write → r.data.length = r.length * 16 ∧ r.enables.length = r.length * 16)
          ∧ (r.kind = .read → r.data = [] ∧ r.enables = []) ∧ ∀ e ∈ s.au.tracking, e.ref ≠ r.ref)
        ∧ ∀ (l : Lane) (i : ReqNo), (s.up.place l i = none → s.laneState l i = .isOpen)
          ∧ (s.up.place l i = some r → s.laneState l i = s.laneOf r))
    ∧ (∀ (p : Straps) (s : State) (r : Request) (g : GroupNo) (a : Addr) (page offset : Nat),
      let pages : Nat := match p.gsz with
        | 0 => 16384
        | 1 => 32768
        | 2 => 65536
        | 3 => 131072
        | _ => 262144
      (groupOfPage p page = some g ↔ g.val * pages ≤ page ∧ page < (g.val + 1) * pages)
        ∧ installedPages p = 16 * pages ∧ pageOf a = a.toNat / 4096 ∧ s.groupOf a = groupOfPage s.straps (a.toNat / 4096)
        ∧ s.controlGroup = s.straps.cgs ∧ controlPage p = p.cgs.val * pages
        ∧ controlAddr p offset = BitVec.ofNat 34 (p.cgs.val * pages * 4096 + offset)
        ∧ (r.isControl p = true ↔ r.address.toNat / 4096 = controlPage p ∨ r.address.toNat / 4096 = controlPage p + 1))

/-- The admission decision: the rows of its table in their order (R74); that a FAULTED group answers before an ORDER hold, as
this table has it and not the last words of R3, is the model's reading (log entry 28). A held entry is due when its reason is WAKE or ORDER, it
is its requester's oldest or the requester is RELAXED, and for WAKE its group is ACTIVE; an examination decides a WAITING
entry again if it is due (R76). Re-decision, its rows in their order: HALT for a halted requester; ORDER behind an older
entry of an ORDERED one, with a wake request where the group is not ACTIVE and the class has WAKE; FAILED; in an ACTIVE
group or an unforced drain LOST, or READY and a move; WAKE with its request; ASLEEP (R77). Row 1 is left out for the entry
that a FORWARD release disposes of (R110). An answered entry leaves the queue, and its requester's oldest remaining entry
is examined (R79). -/
def Obligations.AdmissionDecisionFollowsItsTable : Prop :=
  (∀ (s : State) (q : ReqNo) (g : GroupNo) (c : ClassNo) (t : Tx),
    let p := s.groups[g]
    let wake := s.ac.programme.classes[c].wake
    let row1 := s.requesters[q].halted = true
    let row2 := s.ac.programme.classes[c].trap = true
    let row3 := p.state = .faulted
    let row4 := s.requesters[q].mode = .ordered ∧ 0 < s.requesters[q].held
    let row5 := p.state = .active ∨ (p.state = .draining ∧ p.forced = false)
    let d := s.admissionDecision q g c t
    (row1 → d = .hold .halt false)
      ∧ (¬ row1 → row2 → d = .hold .trap false)
      ∧ (¬ row1 → ¬ row2 → row3 → d = .answer .failed)
      ∧ (¬ row1 → ¬ row2 → ¬ row3 → row4 → d = .hold .order (p.state != .active && wake))
      ∧ (¬ row1 → ¬ row2 → ¬ row3 → ¬ row4 → row5 →
          d = if t.kind = .read ∧ (∃ i : RegionNo, s.lookup (pageOf t.address) = some i ∧ s.regions[i].lost = true)
            then .answer .lost else .forward)
      ∧ (¬ row1 → ¬ row2 → ¬ row3 → ¬ row4 → ¬ row5 → wake = true → d = .hold .wake true)
      ∧ (¬ row1 → ¬ row2 → ¬ row3 → ¬ row4 → ¬ row5 → wake = false → d = .answer .asleep))
    ∧ ∀ (s : State) (e : HoldEntry),
      let q := s.requesters[e.requester]
      let p := s.groups[e.group]
      let wake := s.ac.programme.classes[e.cls].wake
      (s.hold.isOldest e = true ↔ ∃ (older newer : List HoldEntry) (x : HoldEntry),
          s.hold.entries = older ++ x :: newer ∧ x.requester = e.requester ∧ x.ref = e.ref
            ∧ ∀ y ∈ older, y.requester ≠ e.requester)
        ∧ (s.due e = true ↔ (e.reason = .wake ∨ e.reason = .order)
          ∧ (q.mode = .relaxed ∨ s.hold.isOldest e = true) ∧ (e.reason = .wake → p.state = .active))
        ∧ (∀ older newer : List HoldEntry, s.hold.entries = older ++ e :: newer → (∀ x ∈ older, x.ref ≠ e.ref) →
          doWork (.examine e.ref) s = if e.state = .waiting ∧ s.due e = true then redecide e true s else (s, []))
        ∧ ∀ row1 : Bool,
          let now := fun f : HoldEntry → HoldEntry =>
            { s with hold := { s.hold with entries := s.hold.entries.map fun x => if x.ref = e.ref then f x else x } }
          let halts := row1 = true ∧ q.halted = true
          let waits := q.mode = .ordered ∧ s.hold.isOldest e = false
          let runs := p.state = .active ∨ (p.state = .draining ∧ p.forced = false)
          let lost := e.tx.kind = .read
            ∧ ∃ i : RegionNo, s.lookup (pageOf e.tx.address) = some i ∧ s.regions[i].lost = true
          let d := redecide e row1 s
          let rest := s.hold.entries.filter fun x => x.ref ≠ e.ref
          let answered := fun st : Status => ∃ u : State, d = (u, [.oldest e.requester])
            ∧ u = s.answeredHeld u e st rest ∧ s.reports (s.hold.noticesAt rest.length) u
          (halts → d = (now fun x => { x with reason := .halt }, []))
            ∧ (¬ halts → waits → d = (now fun x => { x with reason := .order },
                if p.state ≠ .active ∧ wake = true then [.wakeRequest e.group e.cls] else []))
            ∧ (¬ halts → ¬ waits → p.state = .faulted → answered .failed)
            ∧ (¬ halts → ¬ waits → runs → lost → answered .lost)
            ∧ (¬ halts → ¬ waits → runs → ¬ lost → d = (now fun x => { x with state := .ready }, [.moveReady]))
            ∧ (¬ halts → ¬ waits → p.state ≠ .faulted → ¬ runs → wake = true →
                d = (now fun x => { x with reason := .wake }, [.wakeRequest e.group e.cls]))
            ∧ (¬ halts → ¬ waits → p.state ≠ .faulted → ¬ runs → wake = false → answered .asleep)

/-- ADMISSION of a transaction that the decision forwards, its class without pre-wakes: it is QUEUED at the tail of the
forward queue with its class recorded, the counts go up, and a class with ACTIVITY reloads the idle timer and returns a
group in unforced drain to ACTIVE (R5, R7, R9, R52, R57, R59, R60, R61, R66, R98, R100). A READ of the control block by an
enabled requester is forwarded, whatever its control attribute, and the command processor is not told of it (R56, R57). -/
def Obligations.AdmissionForwards : Prop :=
  (∀ (s : State) (r : Request) (g : GroupNo) (c : ClassNo), s.memoryAdmitted r g c →
    s.admissionDecision r.requester g c r.tx = .forward →
    (s.groups[g].state = .draining → ∀ e ∈ s.hold.entries, e.group ≠ g) →
      ∃ u : State, exec (.admission [r]) s = .next (finish u)
        ∧ u = { (s.accepted r.requester).withReports u with
            au := s.au.withEntry { s.freshEntry r g c with state := .queued }
            requesters := s.requesters.set r.requester s.requesters[r.requester].admitting
            ac := { s.ac with counters := (s.ac.counters.set c
              { s.ac.counters[c] with
                admitted := s.ac.counters[c].admitted + 1, forwarded := s.ac.counters[c].forwarded + 1 }) }
            dp := { s.dp with forward := s.dp.forward ++ [r.ref] }
            groups := s.groups.set g (
              let p := { s.groups[g] with inFlight := s.groups[g].inFlight + 1 }
              if s.ac.programme.classes[c].activity then
                if p.state = .draining then { p with state := .active, target := none, idle := 0 }
                else { p with idle := 0 }
              else p) }
        ∧ s.reports [] u)
    ∧ (∀ (s : State) (r : Request), s.nothingWaits → r.isControl s.straps = true → r.kind = .read →
      s.laneOf r = .isOpen → s.protocolOk r = true → s.requesters[r.requester].enabled = true →
        exec (.admission [r]) s = .next (finish { s.writeForwarded r with cp := s.cp }))

/-- ADMISSION of a transaction that the decision answers ASLEEP, FAILED or LOST, its class without pre-wakes: it is ANSWERING
with that status, and ACTIVITY reloads the idle timer; in an unforced drain, where the answer is LOST, ACTIVITY cancels
the drain (R7, R59, R74, R98, R100). -/
def Obligations.AdmissionAnswersAtOnce : Prop :=
  ∀ (s : State) (r : Request) (g : GroupNo) (c : ClassNo) (st : Status), s.memoryAdmitted r g c →
    s.admissionDecision r.requester g c r.tx = .answer st →
    let p := s.groups[g]
    let activity := s.ac.programme.classes[c].activity
    let t : State := { s.accepted r.requester with
      au := { s.au.withEntry { s.freshEntry r g c with state := .answering, status := some st } with
        responses := s.au.responses ++ [.tracked r.ref] }
      requesters := s.requesters.set r.requester s.requesters[r.requester].admitting
      ac := { s.ac with counters := (s.ac.counters.set c
        { s.ac.counters[c] with
          admitted := s.ac.counters[c].admitted + 1, refused := s.ac.counters[c].refused + 1 }) } }
    (¬ (p.state = .draining ∧ p.forced = false) →
        exec (.admission [r]) s = .next (finish { t with
          groups := s.groups.set g { p with idle := if activity then 0 else p.idle } }))
      ∧ (p.state = .draining → p.forced = false → (∀ e ∈ s.hold.entries, e.group ≠ g) →
        st = .lost ∧ ∃ u : State, exec (.admission [r]) s = .next (finish u)
          ∧ u = { t.withReports u with
              groups := if activity then s.groups.set g { p with state := .active, target := none, idle := 0 }
                else s.groups }
          ∧ s.reports [] u)

/-- ADMISSION of a transaction that the decision holds, its class without pre-wakes: its entry joins the tail of the hold queue,
WAITING with the reason of the decision, and the held counts go up; an occupancy at the high watermark turns backpressure
on and raises QUEUE_HIGH. In an unforced drain the drain is cancelled: the group is ACTIVE, its idle elapsed 0. A trap
halts the requester and raises TRAP_HIT. No other notice is raised. A wake request sets wake pending in a forced drain or an entry, starts the wake
of an ASLEEP group, counted for the class, and changes nothing in the other states (R7, R24, R71, R73, R74, R82, R85,
R102, R106). -/
def Obligations.AdmissionHolds : Prop :=
  ∀ (s : State) (r : Request) (g : GroupNo) (c : ClassNo) (reason : HoldReason) (wake : Bool), s.memoryAdmitted r g c →
    s.admissionDecision r.requester g c r.tx = .hold reason wake →
    (s.groups[g].state = .draining → s.groups[g].forced = false →
      (∀ e ∈ s.hold.entries, e.group ≠ g) ∧ (reason = .order → ∃ e ∈ s.hold.entries, e.requester = r.requester)) →
    s.controlAwake → s.hold.entries.all (fun e => e.ref != r.ref) = true →
      ∃ u : State, exec (.admission [r]) s = .next (finish u)
        ∧ u = { (s.accepted r.requester).withReports u with
            au := s.au.withEntry { s.freshEntry r g c with state := .held }
            requesters := s.requesters.set r.requester (
              let q := { s.requesters[r.requester].admitting with held := s.requesters[r.requester].held + 1 }
              if reason = .trap then { q with halted := true, trapped := some r.ref, trapCount := q.trapCount + 1 }
              else q)
            hold := { s.hold with
              entries := s.hold.entries ++ [{ ref := r.ref, seq := s.au.nextSeq, group := g, cls := c, tx := r.tx
                                              state := .waiting, reason := reason }]
              peak := max s.hold.peak (s.hold.entries.length + 1)
              backpressure := decide (s.hold.high ≤ s.hold.entries.length + 1) }
            ac := { s.ac with counters := (s.ac.counters.set c
              { s.ac.counters[c] with
                admitted := s.ac.counters[c].admitted + 1, held := s.ac.counters[c].held + 1
                wakesCaused := if wake = true ∧ s.groups[g].state = .asleep then s.ac.counters[c].wakesCaused + 1
                  else s.ac.counters[c].wakesCaused }) }
            groups := s.groups.set g u.groups[g]
            slu := u.slu, outputs := u.outputs }
        ∧ (let n := s.hold.entries.length + 1
           ∃ ns : List Notice, s.reports ns u ∧ ns.Perm
             ((if s.hold.high ≤ n then [.queueHigh n s.hold.high] else [])
               ++ if reason = .trap then [.trapHit r.requester g r.tag r.kind c r.address none] else []))
        ∧ (let p : GroupRec := { s.groups[g] with
              held := s.groups[g].held + 1
              idle := if s.ac.programme.classes[c].activity then 0 else s.groups[g].idle }
           if p.state = .draining ∧ p.forced = false then u.slu = s.slu ∧ u.outputs = []
             ∧ u.groups[g] = { p with state := .active, target := none, idle := 0 }
           else if wake = true ∧ p.state = .asleep then s.wakeBegun u g (p.woken (p.depth == .off))
           else u.slu = s.slu ∧ u.outputs = [] ∧ u.groups[g] =
             if wake = true ∧ (p.state = .entering ∨ p.state = .draining) then { p with wakePending := true } else p)

/-- The class given is the lowest-numbered of C1 to C7 with a true term, else C0 (R93). A term is true when it is enabled, element
a matches and element b, where present, matches or, negated, does not (R92). An enabled element matches a transaction of
a requester in its mask, a kind it tests for, an address in its page window, and a WRITE whose first eight bytes, a
disabled one taken as 0, agree with its pattern in every bit of its data mask (R89, R90). Bit n of the requester mask stands
for requester n: the model's reading (log entry 26). -/
def Obligations.ClassIsTheLowestTrueOne : Prop :=
  (∀ (p : Programme) (q : ReqNo) (t : Tx) (c : ClassNo), p.classify q t = c ↔
    ((c ≠ 0 ∧ p.holds q t c = true ∧ ∀ d : ClassNo, d ≠ 0 → d < c → p.holds q t d = false)
      ∨ (c = 0 ∧ ∀ d : ClassNo, d ≠ 0 → p.holds q t d = false)))
    ∧ (∀ (p : Programme) (q : ReqNo) (t : Tx) (c : ClassNo), p.holds q t c = true ↔
      ∃ x ∈ p.classes[c].terms.toList, x.enabled = true ∧ p.elements[x.a].hits q t = true
        ∧ ∀ b : ElemNo, x.b = some b → p.elements[b].hits q t = !x.bNegated)
    ∧ (∀ (e : Element) (q : ReqNo) (t : Tx), e.hits q t = true ↔
      e.enabled = true ∧ e.mask.getLsbD q.val = true
        ∧ (e.kindTest = .any ∨ (e.kindTest = .read ∧ t.kind = .read) ∨ (e.kindTest = .write ∧ t.kind = .write))
        ∧ (∀ lo hi : Nat, e.window = some (lo, hi) → lo ≤ t.address.toNat / 4096 ∧ t.address.toNat / 4096 ≤ hi)
        ∧ (∀ pattern mask : Vector Byte 8, e.dataTest = some (pattern, mask) → t.kind = .write
          ∧ ∀ (k : Fin 8) (bit : Nat), mask[k].getLsbD bit = true →
            (if t.enables.getD k.val false then t.data.getD k.val 0 else (0 : Byte)).getLsbD bit
              = pattern[k].getLsbD bit))

/-! ## Control-block writes -/

/-- CMD_PRODUCER: the write is forwarded. A value further than 32 beyond the command consumer, or behind the producer shadow,
raises RING_PROTOCOL and changes no shadow; the shadow's own value changes nothing; any other is taken into the shadow
with a producer mark, and the fetch test is applied (R147, R148, R149). An IDLE command processor enters FETCHING, a
mirrored change (R152), with the next command in hand, its issuer that of the oldest mark whose value differs from the command consumer; the READ of
four beats at its slot is offered once no outstanding control write is older than that mark, the place is empty and no
fetch is downstream (R148, R154). The write is one beat at the start of the control block (log entry 5), and
sequence numbers are compared across the wrap (log entry 13): the model's choices. -/
def Obligations.CommandProducerWrite : Prop :=
  (∀ (s : State) (q : ReqNo) (tag : Tag) (value : BitVec 16) (en : BitVec 2), s.controlOpen q tag → en ≠ 0 →
    let r := wordWrite s.straps q tag 0 2 (value.setWidth 32) (en.setWidth 32)
    let f := s.writeForwarded r
    let old := s.cp.producerShadow
    let v : BitVec 16 :=
      (if en.getLsbD 1 then value.extractLsb' 8 8 else old.extractLsb' 8 8)
        ++ (if en.getLsbD 0 then value.extractLsb' 0 8 else old.extractLsb' 0 8)
    let breaks := 32 < (v - s.cp.cmdConsumer).toNat ∨ (v - s.cp.cmdConsumer).toNat < (old - s.cp.cmdConsumer).toNat
    let i := Instr.cmdProducer q tag value en
    (breaks → ∃ u : State, exec i s = .next (finish u) ∧ u = f.withReports u ∧ f.reports [.ringProtocol false v] u)
      ∧ (¬ breaks → v = old → exec i s = .next (finish f))
      ∧ (¬ breaks → v ≠ old →
        let c := { f.cp with
          producerShadow := v, marks := s.cp.marks ++ [{ value := v, requester := q, seq := s.au.nextSeq }] }
        (s.cp.state ≠ .idle → exec i s = .next (finish { f with cp := c }))
          ∧ (s.cp.state = .idle →
            ∃ u : State, exec i s = .next (finish u)
              ∧ u = { f.withReports u with dp := { f.dp with fetchPlace := f.fetchPlaceAfter u.cp } }
              ∧ u.cp = (mirrorChange { f with cp := { c with state := .fetching, inHand := u.cp.inHand } }).cp
              ∧ (∃ m : Mark, u.cp.covering = some m
                ∧ u.cp.inHand = some { seq := s.cp.cmdConsumer, issuer := m.requester })
              ∧ (s.cp.marks = [] → u.cp.inHand = some { seq := s.cp.cmdConsumer, issuer := q }))))
    ∧ (∀ (c : CmdProc) (p : Straps) (m : Mark) (a b : BitVec 32),
      (c.covering = some m ↔ ∃ older newer : List Mark, c.marks = older ++ m :: newer ∧ m.value ≠ c.cmdConsumer
          ∧ ∀ x ∈ older, x.value = c.cmdConsumer)
        ∧ (c.barrierMet b = true ↔ ∀ q ∈ c.outstanding, seqLess q b = false)
        ∧ (seqLess a b = true ↔ a ≠ b ∧ (b - a).toNat < 2147483648)
        ∧ c.fetchTx p = { kind := .read, address := controlAddr p (0x400 + 64 * (c.cmdConsumer.toNat % 32)), length := 4
                          data := [], enables := [] })

/-- REPORT_CONSUMER and IRQ_ENABLE: the write is forwarded. A REPORT_CONSUMER value beyond the report producer raises RING_PROTOCOL
and changes no shadow; the shadow's own value changes nothing; any other is taken into the shadow. At that change a waiting
completion is posted first, if a slot is free, and the change to POSTING is mirrored (R152); then, with notices lost and more than four slots still free, NOTICE_OVERFLOW
is written and the set and total are cleared; else nothing more changes (R147, R149, R156, R186, R188). The completion's two
writes join the list ahead of a mirror write of the change (log entry 25), reports join it however many writes it holds
(log entry 29), and the write is one beat at the start of the control block (log entry 5): the model's choices. The IRQ_ENABLE shadow takes the enabled bytes (R147, R151). -/
def Obligations.ReportAndInterruptWordWrites : Prop :=
  (∀ (s : State) (q : ReqNo) (tag : Tag) (value : BitVec 16) (en : BitVec 2), s.controlOpen q tag → en ≠ 0 →
    let r := wordWrite s.straps q tag 4 2 (value.setWidth 32) (en.setWidth 32)
    let f := s.writeForwarded r
    let old := s.cp.consumerShadow
    let v : BitVec 16 :=
      (if en.getLsbD 1 then value.extractLsb' 8 8 else old.extractLsb' 8 8)
        ++ (if en.getLsbD 0 then value.extractLsb' 0 8 else old.extractLsb' 0 8)
    let breaks := (s.cp.reportProducer - old).toNat < (v - old).toNat
    let i := Instr.reportConsumer q tag value en
    let taken := { f.cp with consumerShadow := v }
    (breaks → ∃ u : State, exec i s = .next (finish u) ∧ u = f.withReports u ∧ f.reports [.ringProtocol true v] u)
      ∧ (¬ breaks → v = old → exec i s = .next (finish f))
      ∧ (¬ breaks → v ≠ old → exec i s = .next (finish (consumerChanged { f with cp := taken }))))
    ∧ (∀ s : State,
      let rp := s.cp.reportProducer
      let unconsumed := (rp - s.cp.consumerShadow).toNat
      let overflow := fun (index : BitVec 16) (ws : List CpWrite) =>
        reportWrites s.straps index (.notice (.overflow s.cp.lostSet s.cp.lostTotal) s.partTime) false ws
      ∃ u : State, consumerChanged s = u ∧ u = s.withReports u
        ∧ ((s.cp.state = .waitSpace → s.cp.inHand.bind InHand.completion = none) →
          (s.cp.lostSet = 0 ∨ s.cp.state = .errorStop ∨ 60 ≤ unconsumed → u.cp = s.cp)
            ∧ (s.cp.lostSet ≠ 0 → s.cp.state ≠ .errorStop → unconsumed < 60 →
              ∃ ws : List CpWrite, overflow rp ws
                ∧ u.cp = { s.cp with
                    writeList := s.cp.writeList ++ ws, reportProducer := rp + 1, lostSet := 0, lostTotal := 0 }))
        ∧ (∀ c : CompletionReport, s.cp.state = .waitSpace → s.cp.inHand.bind InHand.completion = some c →
          (64 ≤ unconsumed → u.cp = s.cp)
            ∧ (unconsumed < 64 → ∃ ws : List CpWrite, reportWrites s.straps rp (.completion c) true ws ∧
              let b := (mirrorChange { s with cp := { s.cp with
                state := .posting, writeList := s.cp.writeList ++ ws, reportProducer := rp + 1 } }).cp
              (s.cp.lostSet = 0 ∨ 59 ≤ unconsumed → u.cp = b)
                ∧ (s.cp.lostSet ≠ 0 → unconsumed < 59 → ∃ more : List CpWrite, overflow (rp + 1) more
                  ∧ u.cp = { b with
                      writeList := b.writeList ++ more, reportProducer := rp + 2, lostSet := 0, lostTotal := 0 }))))
    ∧ (∀ (s : State) (q : ReqNo) (tag : Tag) (value : BitVec 32) (en : BitVec 4), s.controlOpen q tag → en ≠ 0 →
    let f := s.writeForwarded (wordWrite s.straps q tag 8 4 value (en.setWidth 32))
    let old := s.cp.irqEnable
    let v : BitVec 32 :=
      ((if en.getLsbD 3 then value.extractLsb' 24 8 else old.extractLsb' 24 8)
          ++ (if en.getLsbD 2 then value.extractLsb' 16 8 else old.extractLsb' 16 8))
        ++ ((if en.getLsbD 1 then value.extractLsb' 8 8 else old.extractLsb' 8 8)
          ++ (if en.getLsbD 0 then value.extractLsb' 0 8 else old.extractLsb' 0 8))
    exec (.irqEnable q tag value en) s = .next (finish { f with cp := { f.cp with irqEnable := v } }))

/-- RESTART_REQUEST, its enabled bytes taken into the shadow: with 0 the shadow is 0 and nothing else changes but that the
write is forwarded. A nonzero value makes a control restart: the command in hand is abandoned, offers are withdrawn, the command consumer takes the producer shadow, the
report producer the consumer shadow, the marks are emptied, EPOCH goes up by 1, the CP is IDLE, the shadow is 0 again;
the other shadows, the outstanding control writes, the published producer, header done stay; no other block changes
(R147, R158). The write list is then the write already downstream, if it is of the list; the restart rewrite, the header in
four writes that spare the software-owned words; RESTART_DONE; and NOTICE_OVERFLOW where notices were lost (R158, R159,
R188, R193). A CP write that had left the list stays so (R159). The mirror write of the change to IDLE stands before the
rewrite, and a payload write kept downstream no longer ends its SNAPSHOT (log entry 17); the write is one beat at the start
of the control block (log entry 5): the model's choices. -/
def Obligations.RestartRequestWrite : Prop :=
  (∀ (s : State) (q : ReqNo) (tag : Tag) (value : BitVec 32) (en : BitVec 4), s.controlOpen q tag → en ≠ 0 →
    let f := s.writeForwarded (wordWrite s.straps q tag 0xC 4 value (en.setWidth 32))
    let old := s.cp.restartShadow
    let v : BitVec 32 :=
      ((if en.getLsbD 3 then value.extractLsb' 24 8 else old.extractLsb' 24 8)
          ++ (if en.getLsbD 2 then value.extractLsb' 16 8 else old.extractLsb' 16 8))
        ++ ((if en.getLsbD 1 then value.extractLsb' 8 8 else old.extractLsb' 8 8)
          ++ (if en.getLsbD 0 then value.extractLsb' 0 8 else old.extractLsb' 0 8))
    let i := Instr.restartRequest q tag value en
    (v = 0 → exec i s = .next (finish { f with cp := { f.cp with restartShadow := 0 } }))
      ∧ (v ≠ 0 → ∃ u : State, controlRestart { f with cp := { f.cp with restartShadow := v } } = u
        ∧ exec i s = .next (finish { u with cp := { u.cp with restartShadow := 0 } })))
    ∧ ∀ s : State,
      let kept := if s.dp.isDown .cpWrite = true ∧ s.cp.orphan = false then
          (s.cp.writeList.take 1).map fun w => match w.kind with
            | .payload _ => { w with kind := .payload false }
            | _ => w
        else []
      let keptMirror := kept.head?.map CpWrite.kind = some .mirror
      let image := s.header s.cp.producerShadow s.cp.consumerShadow (s.cp.epoch + 1)
      ∃ (u : State) (rewrite dropped overflow : List CpWrite), controlRestart s = u
        ∧ u = { s.withReports u with dp := { s.dp with writePlace := none, fetchPlace := none } }
        ∧ u.cp = { s.cp with
            state := .idle, inHand := none, cmdConsumer := s.cp.producerShadow, marks := [], epoch := s.cp.epoch + 1
            reportProducer := u.cp.reportProducer, lostSet := u.cp.lostSet, lostTotal := u.cp.lostTotal
            writeList := kept
              ++ (if s.cp.state ≠ .idle ∧ ¬ keptMirror then [{ kind := .mirror, tx := none }] else [])
              ++ rewrite ++ dropped ++ overflow
            reMirror := decide (s.cp.state ≠ .idle ∧ keptMirror)
            fetchStale := s.dp.isDown .cpFetch }
        ∧ rewrite.length = 4
        ∧ (∀ j : Fin 4, ∃ d : List Byte, rewrite[j.val]? = some
              { kind := .restart j s.cp.consumerShadow
                tx := some { kind := .write, address := controlAddr s.straps (256 * j.val), length := 16, data := d
                             enables := (List.range 256).map fun o => decide (¬ (j = 0
                               ∧ (o ≤ 1 ∨ (4 ≤ o ∧ o ≤ 5) ∨ (8 ≤ o ∧ o ≤ 15)))) } }
            ∧ d.length = 256
            ∧ ∀ o : Nat, o < 256 → ¬ (j = 0 ∧ (o ≤ 1 ∨ (4 ≤ o ∧ o ≤ 5) ∨ (8 ≤ o ∧ o ≤ 15))) →
              byteAt d o = byteAt image (256 * j.val + o))
        ∧ reportWrites s.straps s.cp.consumerShadow
            (.notice (.restartDone (s.cp.producerShadow - s.cp.cmdConsumer) (s.cp.epoch + 1)) s.partTime) false dropped
        ∧ (s.cp.lostSet = 0 → overflow = [] ∧ u.cp.reportProducer = s.cp.consumerShadow + 1 ∧ u.cp.lostSet = 0
            ∧ u.cp.lostTotal = s.cp.lostTotal)
        ∧ (s.cp.lostSet ≠ 0 → u.cp.reportProducer = s.cp.consumerShadow + 2 ∧ u.cp.lostSet = 0 ∧ u.cp.lostTotal = 0
            ∧ reportWrites s.straps (s.cp.consumerShadow + 1)
              (.notice (.overflow s.cp.lostSet s.cp.lostTotal) s.partTime) false overflow)

/-- CONTROL_BLOCK_WRITE: a well-formed write that spares the watched words. With every enabled byte in a software-owned part it
is forwarded and nothing but the outstanding control writes changes in the command processor; with an enabled byte
elsewhere, or from a requester disabled or without the control attribute, it is answered DENIED and not passed on (R56, R57, R66,
R147). So is every such WRITE of the control block by ADMISSION, whether it enables watched words or not, and so are the writes
of one watched word from such a requester: no shadow changes. The software-owned parts are the four words and the command ring (R56,
R145). ADMISSION of a write at the start of the control block that may touch every watched word: each word with an enabled
byte is merged with its shadow, and they are acted on in the order CMD_PRODUCER, REPORT_CONSUMER, IRQ_ENABLE,
RESTART_REQUEST. A value that breaks the ring protocol leaves its shadow, and the other words are acted on all the same. A
restart comes last: it drops the commands up to the CMD_PRODUCER value just taken, and the report producer takes the
REPORT_CONSUMER value just taken (R147, R148, R149, R158). What a word brings about, `CommandProducerWrite`,
`ReportAndInterruptWordWrites` and `RestartRequestWrite` say. The form of a write of one word is the model's choice (log entry
5). -/
def Obligations.ControlBlockWrite : Prop :=
  (∀ (s : State) (q : ReqNo) (tag : Tag) (offset : BitVec 13) (length : Nat) (data : List Byte) (enables : List Bool),
    (Instr.controlBlockWrite q tag offset length data enables).wellFormed = true →
    let r := offsetWrite s.straps q tag offset length data enables
    let owned := ∀ k : Nat, k < 16 * length → enables.getD k false = true →
      softwareOwned (offset.toNat + k) = true
    let i := Instr.controlBlockWrite q tag offset length data enables
    (s.controlOpen q tag → owned → exec i s = .next (finish (s.writeForwarded r)))
      ∧ (s.controlOpenBut q tag → s.requesters[q].enabled = false ∨ s.requesters[q].control = false ∨ ¬ owned →
        exec i s = .next (finish (s.controlDenied r))))
    ∧ (∀ (s : State) (r : Request), s.controlOpenBut r.requester r.tag → r.isControl s.straps = true →
      r.kind = .write → s.protocolOk r = true →
      (s.requesters[r.requester].enabled = false ∨ s.requesters[r.requester].control = false
        ∨ ∃ k : Nat, r.enables.getD k false = true
          ∧ softwareOwned (r.address.toNat - (controlAddr s.straps 0).toNat + k) = false) →
      exec (.admission [r]) s = .next (finish (s.controlDenied r)))
    ∧ (∀ (s : State) (q : ReqNo) (tag : Tag), s.controlOpenBut q tag →
      s.requesters[q].enabled = false ∨ s.requesters[q].control = false →
      let denied := fun (i : Instr) (offset size : Nat) (value enables : BitVec 32) =>
        exec i s = .next (finish (s.controlDenied (wordWrite s.straps q tag offset size value enables)))
      (∀ (v : BitVec 16) (en : BitVec 2),
          denied (.cmdProducer q tag v en) 0 2 (v.setWidth 32) (en.setWidth 32)
            ∧ denied (.reportConsumer q tag v en) 4 2 (v.setWidth 32) (en.setWidth 32))
        ∧ ∀ (v : BitVec 32) (en : BitVec 4),
          denied (.irqEnable q tag v en) 8 4 v (en.setWidth 32)
            ∧ denied (.restartRequest q tag v en) 12 4 v (en.setWidth 32))
    ∧ (∀ o : Nat, softwareOwned o = true ↔
      o < 2 ∨ (4 ≤ o ∧ o < 6) ∨ (8 ≤ o ∧ o < 16) ∨ (0x400 ≤ o ∧ o < 0xC00))
    ∧ (∀ (p : Straps) (q : ReqNo) (tag : Tag) (offset size i : Nat) (value enables : BitVec 32),
      let r := wordWrite p q tag offset size value enables
      let inWord := offset ≤ i ∧ i < offset + size
      r.requester = q ∧ r.tag = tag ∧ r.kind = .write ∧ r.address = controlAddr p 0 ∧ r.length = 1
        ∧ r.data.length = 16 ∧ r.enables.length = 16
        ∧ (i < 16 → inWord → r.data.getD i 0 = value.extractLsb' (8 * (i - offset)) 8
          ∧ r.enables.getD i false = enables.getLsbD (i - offset))
        ∧ (¬ inWord → r.data.getD i 0 = 0 ∧ r.enables.getD i false = false))
    ∧ ∀ (s : State) (q : ReqNo) (tag : Tag) (length : Nat) (data : List Byte) (enables : List Bool),
      s.controlOpen q tag → 1 ≤ length → length ≤ 16 → data.length = 16 * length → enables.length = 16 * length →
      (∀ k : Nat, enables.getD k false = true → softwareOwned k = true) →
      let r := offsetWrite s.straps q tag 0 length data enables
      let f := s.writeForwarded r
      let enabled := fun o : Nat => enables.getD o false = true
      let byte := fun (o : Nat) (b : Byte) => if enabled o then data.getD o 0 else b
      let word16 := fun (o : Nat) (w : BitVec 16) => byte (o + 1) (w.extractLsb' 8 8) ++ byte o (w.extractLsb' 0 8)
      let word32 := fun (o : Nat) (w : BitVec 32) => word16 (o + 2) (w.extractLsb' 16 16) ++ word16 o (w.extractLsb' 0 16)
      let c := s.cp
      let pv : BitVec 16 := word16 0 c.producerShadow
      let cv : BitVec 16 := word16 4 c.consumerShadow
      let rv : BitVec 32 := word32 12 c.restartShadow
      let producerBreaks := (enabled 0 ∨ enabled 1) ∧ (32 < (pv - c.cmdConsumer).toNat
        ∨ (pv - c.cmdConsumer).toNat < (c.producerShadow - c.cmdConsumer).toNat)
      let consumerBreaks := (c.reportProducer - c.consumerShadow).toNat < (cv - c.consumerShadow).toNat
      let restartTouched := enabled 12 ∨ enabled 13 ∨ enabled 14 ∨ enabled 15
      let restarts := restartTouched ∧ rv ≠ 0
      let marks := if producerBreaks ∨ pv = c.producerShadow then c.marks
        else c.marks ++ [{ value := pv, requester := q, seq := s.au.nextSeq }]
      let fetches := ¬ producerBreaks ∧ pv ≠ c.producerShadow ∧ c.state = .idle
      let words := { f.cp with
        producerShadow := if producerBreaks then c.producerShadow else pv
        marks := marks
        irqEnable := word32 8 c.irqEnable
        restartShadow := if restartTouched then rv else c.restartShadow }
      let tested : State := if fetches then
          mirrorChange { f with cp := { words with
            state := .fetching
            inHand := words.covering.map fun m => { seq := c.cmdConsumer, issuer := m.requester } } }
        else { f with cp := words }
      let told := if producerBreaks then raiseNotice (.ringProtocol false pv) tested else tested
      let acted := if consumerBreaks then raiseNotice (.ringProtocol true cv) told
        else if cv = c.consumerShadow then told
        else consumerChanged { told with cp := { told.cp with consumerShadow := cv } }
      (c.reportProducer - c.consumerShadow).toNat ≤ 64 → ¬ (producerBreaks ∧ consumerBreaks) →
        (¬ restarts → exec (.admission [r]) s = .next (finish { acted with
            dp := { f.dp with fetchPlace := if fetches then f.fetchPlaceAfter acted.cp else f.dp.fetchPlace } }))
          ∧ (restarts → ∃ (u : State) (ws : List CpWrite), controlRestart acted = u
            ∧ exec (.admission [r]) s = .next (finish { u with cp := { u.cp with restartShadow := 0 } })
            ∧ u.cp.state = .idle ∧ u.cp.cmdConsumer = words.producerShadow ∧ u.cp.epoch = c.epoch + 1
            ∧ ws <:+: u.cp.writeList
            ∧ reportWrites s.straps (if consumerBreaks then c.consumerShadow else cv)
              (.notice (.restartDone (words.producerShadow - c.cmdConsumer) (c.epoch + 1)) s.partTime) false ws)

/-! ## Group power channel and time -/

/-- DONE for a group with no request outstanding: the stray counter goes up by 1 and nothing else changes (R11). -/
def Obligations.StrayDoneIsCounted : Prop :=
  ∀ (s : State) (g : GroupNo) (result : DoneResult),
    s.groups[g].state ≠ .entering → ¬ (s.groups[g].state = .waking ∧ s.groups[g].wakeSub = some .exiting) →
      exec (.done g result) s = .next (finish { s with
        groups := s.groups.set g
          { s.groups[g] with counters := { s.groups[g].counters with strays := s.groups[g].counters.strays + 1 } }
        outputs := [] })

/-- DONE OK for an ENTER: the group is ASLEEP at its target, its timer stopped, forced and cause cleared, the entry counted,
and GROUP_ASLEEP raised. Wake work is wake pending, or an entry held for the group that waits with reason WAKE, a READY entry
not counting, which is the model's reading (log entry 21). With it a wake starts at once and the group is never reported asleep; without, the
supply line unit is told of the arrival: a line that depends on the group goes OFF, with LINE_STATE, where its off condition
now holds (R116, R117, R121, R124). Where no deeper depth is due nothing else follows; else ENTER is sent for it and the
unit is told again, a line then OFF settling at once (R13, R16, R118). Bit n of a line's dependency set stands for group n: the
model's reading (log entry 26). -/
def Obligations.EntryEndsAsleep : Prop :=
  (∀ (s : State) (g : GroupNo) (d : Sleep), s.groups[g].state = .entering → s.groups[g].target = some d →
    let r := s.groups[g]
    let a : GroupRec :=
      { r with
        state := .asleep, depth := d.toDepth, target := none, forced := false, timer := none, cause := none
        counters := match d with
          | .nap => { r.counters with toNap := r.counters.toNap + 1 }
          | .retain => { r.counters with toRetain := r.counters.toRetain + 1 }
          | .off => { r.counters with toOff := r.counters.toOff + 1 } }
    ∃ u : State, exec (.done g .ok) s = .next (finish u)
      ∧ u = { s.withReports u with groups := s.groups.set g u.groups[g], slu := u.slu, outputs := u.outputs }
      ∧ (r.wakePending = true ∨ s.hasWakeEntry g = true → s.wakeBegun u g (a.woken (decide (d = .off)))
          ∧ s.reports [.groupAsleep g d.toDepth r.cause] u)
      ∧ (r.wakePending = false → s.hasWakeEntry g = false → ∃ ns : List Notice, s.reports ns u
          ∧ ns.Perm (.groupAsleep g d.toDepth r.cause :: s.wentOff g (some d)))
      ∧ (r.wakePending = false → s.hasWakeEntry g = false →
          (∀ d' : Sleep, s.idleTarget g = some d' → d'.toDepth.num ≤ d.toDepth.num) →
          u.groups[g] = a ∧ u.outputs = [] ∧ u.slu = (s.told g (some d)).slu)
      ∧ (r.wakePending = false → s.hasWakeEntry g = false →
          ∀ d' : Sleep, s.idleTarget g = some d' → d.toDepth.num < d'.toDepth.num →
          u.groups[g] = { a with state := .entering, target := some d', timer := some s.timeouts.entry }
            ∧ u.outputs = [.enter g d'] ∧ u.slu = ((s.told g (some d)).told g none).slu))
    ∧ (∀ (s : State) (g : GroupNo), s.hasWakeEntry g = true ↔
      ∃ e ∈ s.hold.entries, e.group = g ∧ e.state = .waiting ∧ e.reason = .wake)
    ∧ [.nap, .retain, .off].map Sleep.toDepth = [.nap, .retain, .off]
    ∧ [.d0, .nap, .retain, .off].map Depth.num = [0, 1, 2, 3]

/-- DONE REFUSED for an ENTER: no change of depth, timer stopped, target and cause absent, forced 0, idle elapsed 0, and
ENTRY_REFUSED raised. From a drain the group is ACTIVE again with wake pending cleared; from ASLEEP it is ASLEEP again,
the supply line unit is told, a line that depends on the group going OFF, with LINE_STATE, where its off condition now
holds (R116, R117, R121, R124), and the group wakes at once if there is wake work (R14). That the unit is told of the
arrival before this wake, so that a line that goes OFF then settles, is the model's choice (log entry 24). Bit n of a line's
dependency set stands for group n: the model's reading (log entry 26). -/
def Obligations.RefusedEntryReturns : Prop :=
  (∀ (s : State) (g : GroupNo) (d : Sleep), s.groups[g].state = .entering → s.groups[g].target = some d →
    let r := s.groups[g]
    let b : GroupRec := { r with timer := none, target := none, forced := false, idle := 0, cause := none }
    let refused := Notice.entryRefused g d.toDepth r.cause
    ∃ u : State, exec (.done g .refused) s = .next (finish u)
      ∧ s.raises u refused
      ∧ (r.depth = .d0 → (∀ e ∈ s.hold.entries, e.group ≠ g) →
          u = { s.withReports u with
            groups := s.groups.set g { b with state := .active, wakePending := false }, outputs := [] }
          ∧ s.reports [refused] u)
      ∧ (r.depth ≠ .d0 →
          ∃ ns : List Notice, s.reports ns u ∧ ns.Perm (refused :: s.wentOff g (viewOf r.depth)))
      ∧ (r.depth ≠ .d0 → r.wakePending = false → s.hasWakeEntry g = false →
          u = { s.withReports u with
            groups := s.groups.set g { b with state := .asleep }, slu := u.slu, outputs := [] }
          ∧ u.slu = (s.told g (viewOf r.depth)).slu)
      ∧ (r.depth ≠ .d0 → r.wakePending = true ∨ s.hasWakeEntry g = true →
          u = { s.withReports u with groups := s.groups.set g u.groups[g], slu := u.slu, outputs := u.outputs }
          ∧ (s.told g (viewOf r.depth)).wakeBegun u g (b.woken (r.depth == .off))))
    ∧ [.d0, .nap, .retain, .off].map viewOf = [none, some .nap, some .retain, some .off]

/-- A failed entry (DONE ERROR, or the entry timeout) makes the group FAULTED, its depth kept, GROUP_FAULT raised, and each
transaction held for it with WAKE or ORDER is answered FAILED, in admission order before what their leaving gives rise
to (log entry 11); with no such entry nothing else changes (R15, R22, R81). -/
def Obligations.FailedEntryFaultsTheGroup : Prop :=
  ∀ (s : State) (g : GroupNo) (i : Instr) (why : FaultReason), s.groups[g].state = .entering →
    ((i = .done g .error ∧ why = .entryError)
      ∨ (i = .entryTimeout g ∧ why = .entryTimeout ∧ s.groups[g].timer = some 0)) →
    let failed := s.hold.entries.filter fun e =>
      e.group == g && e.state == .waiting && (e.reason == .wake || e.reason == .order)
    let faulted := Notice.groupFault g s.groups[g].depth why s.groups[g].cause
    ∃ u : State, exec i s = .next (finish u)
      ∧ s.raises u faulted
      ∧ u.groups[g] = { s.groups[g].faulted why with held := u.groups[g].held, inFlight := u.groups[g].inFlight }
      ∧ ((∀ e ∈ s.hold.entries, e.group ≠ g) →
          u = { s.withReports u with groups := s.groups.set g (s.groups[g].faulted why), outputs := [] }
          ∧ s.reports [faulted] u)
      ∧ (s.hold.entries.length ≤ 64 → (s.hold.entries.map HoldEntry.ref).Nodup →
          s.au.responses ++ failed.map (fun e => .tracked e.ref) <+: u.au.responses
          ∧ ∀ e ∈ failed, (∀ x ∈ u.hold.entries, x.ref ≠ e.ref)
            ∧ ∀ x ∈ s.au.tracking, x.ref = e.ref →
              { x with state := .answering, status := some .failed, readData := none } ∈ u.au.tracking)
      ∧ (∀ e : HoldEntry, s.hold.entries = [e] → e.group = g → e.state = .waiting →
          e.reason = .wake ∨ e.reason = .order →
          (∃ ns : List Notice, s.reports ns u ∧ ns.Perm (faulted :: s.hold.noticesAt 0))
          ∧ u.hold.entries = [] ∧ u.au.responses = s.au.responses ++ [.tracked e.ref]
          ∧ u.groups[g].held = s.groups[g].held - 1
          ∧ u.au.tracking = s.au.tracking.map fun x => if x.ref = e.ref then
              { x with state := .answering, status := some .failed, readData := none } else x)

/-- DONE OK for an EXIT. A warm exit, and a cold one of a group with no region to refill, end ACTIVE at D0 with GROUP_ACTIVE,
the idle timer reloaded, and a held transaction of the group goes on; several go on in admission order, whoever their
requesters, while a place is free (R20, R78). A cold exit marks the LOSE_OK regions lost; with a LOSE_FILL region the
group is SCRUBBING and joins the scrub queue; alone in it, it is served at once, the write of the first 256 bytes of its
lowest-numbered LOSE_FILL region being offered (R18, R20, R36, R41 to R43). -/
def Obligations.ExitEndsActive : Prop :=
  ∀ (s : State) (g : GroupNo), s.groups[g].state = .waking → s.groups[g].wakeSub = some .exiting →
    let r := s.groups[g]
    let fills := ∃ i : RegionNo, s.regions[i].valid = true ∧ groupOfPage s.straps s.regions[i].basePage = some g
      ∧ s.regions[i].policy = .loseFill
    let marks := ∃ i : RegionNo, s.regions[i].valid = true ∧ groupOfPage s.straps s.regions[i].basePage = some g
      ∧ s.regions[i].policy = .loseOk
    let woken := Notice.groupActive g (some (if r.coldExit then .lost else .kept)) r.cause
    ∃ u : State, exec (.done g .ok) s = .next (finish u)
      ∧ (∀ i : RegionNo, u.regions[i] =
          if r.coldExit = true ∧ s.regions[i].valid = true
            ∧ groupOfPage s.straps s.regions[i].basePage = some g ∧ s.regions[i].policy = .loseOk
          then { s.regions[i] with lost := true } else s.regions[i])
      ∧ (r.coldExit = false ∨ ¬ fills →
          u.groups[g] = { r with
              state := .active, wakeSub := none, retryUsed := false, idle := 0, timer := none, depth := .d0
              content := some (if r.coldExit then .lost else .kept), cause := none
              held := u.groups[g].held, inFlight := u.groups[g].inFlight }
          ∧ s.raises u woken
          ∧ ((∀ e ∈ s.hold.entries, e.group ≠ g) →
              u = { s.withReports u with
                groups := s.groups.set g u.groups[g], regions := u.regions, outputs := [] }
              ∧ s.reports [woken] u
              ∧ u.groups[g].held = r.held ∧ u.groups[g].inFlight = r.inFlight)
          ∧ (∀ e : HoldEntry, s.hold.entries = [e] → e.group = g → e.state = .waiting → e.reason = .wake →
              s.requesters[e.requester].halted = false → e.tx.kind = .write → s.dp.forward.length < 16 →
              (∃ ns : List Notice, s.reports ns u ∧ ns.Perm (woken :: s.hold.noticesAt 0))
              ∧ u.hold.entries = [] ∧ u.dp.forward = s.dp.forward ++ [e.ref]
              ∧ u.groups[g].inFlight = r.inFlight + 1 ∧ u.groups[g].held = r.held - 1)
          ∧ (∀ e1 e2 e3 : HoldEntry, s.hold.entries = [e1, e2, e3] → e1.ref ≠ e2.ref → e2.ref ≠ e3.ref →
              e1.ref ≠ e3.ref → e1.requester = e3.requester → e2.requester ≠ e1.requester →
              (∀ e ∈ [e1, e2, e3], e.group = g ∧ e.state = .waiting ∧ e.tx.kind = .write
                ∧ s.requesters[e.requester].halted = false) →
              e1.reason = .wake → e2.reason = .wake → e3.reason = .order →
              (s.dp.forward.length ≤ 13 → u.hold.entries = []
                ∧ u.dp.forward = s.dp.forward ++ [e1.ref, e2.ref, e3.ref])
              ∧ (s.dp.forward.length = 14 → u.hold.entries = [{ e3 with state := .ready }]
                ∧ u.dp.forward = s.dp.forward ++ [e1.ref, e2.ref])))
      ∧ (r.coldExit = true → fills →
          u = { s.withReports u with
              groups := u.groups, regions := u.regions, scrub := u.scrub, dp := u.dp, outputs := [] }
          ∧ s.reports [] u
          ∧ u.groups = s.groups.set g { r with
              state := .scrubbing, wakeSub := none, timer := none, depth := .d0, content := u.groups[g].content }
          ∧ (marks → u.groups[g].content = some .lostFilled) ∧ (¬ marks → u.groups[g].content = some .filled)
          ∧ u.scrub.queue = s.scrub.queue ++ [g]
          ∧ (s.scrub.queue ≠ [] → u.scrub = { s.scrub with queue := u.scrub.queue } ∧ u.dp = s.dp)
          ∧ (s.scrub.queue = [] → ∀ (i : RegionNo) (f : BitVec 32), s.fills g i →
              (∀ j : RegionNo, j < i → ¬ s.fills g j) → s.regions[i].fill = some f →
            let first : Addr := BitVec.ofNat 34 (s.regions[i].basePage * 4096)
            u.scrub = { queue := [g], engine := .offered, cursorGroup := some g, cursorRegion := some i
                        cursorAddr := some first }
            ∧ u.dp = { s.dp with
                scrubPlace := some { kind := .write, address := first, length := 16
                                     data := (List.replicate 64 (le32 f)).flatten
                                     enables := List.replicate 256 true } }))

/-- A failed EXIT (DONE REFUSED, DONE ERROR or the exit timeout): the first time EXIT is sent again with the same cold flag, the
timer is loaded again at the timeout's present value, and WAKE_RETRY is raised; the second time the group is FAULTED
with EXIT_FAILED (R19, R22). -/
def Obligations.FailedExitIsRetriedOnce : Prop :=
  ∀ (s : State) (g : GroupNo) (i : Instr), s.groups[g].state = .waking → s.groups[g].wakeSub = some .exiting →
    (i = .done g .refused ∨ i = .done g .error ∨ (i = .exitTimeout g ∧ s.groups[g].timer = some 0)) →
    let r := s.groups[g]
    (r.retryUsed = false → ∃ u : State, exec i s = .next (finish u)
        ∧ u = { s.withReports u with
            groups := s.groups.set g { r with
              retryUsed := true
              timer := some (if r.coldExit then s.timeouts.exitOff else match r.depth with
                | .nap => s.timeouts.exitNap
                | .retain => s.timeouts.exitRetain
                | .d0 | .off => s.timeouts.exitOff) }
            outputs := [.exit g r.coldExit] }
        ∧ s.reports [.wakeRetry g r.depth r.cause] u)
      ∧ (r.retryUsed = true → ∃ u : State, exec i s = .next (finish u)
        ∧ u.groups[g] = { r.faulted .exitFailed with held := u.groups[g].held, inFlight := u.groups[g].inFlight }
        ∧ s.raises u (.groupFault g r.depth .exitFailed r.cause)
        ∧ ((∀ e ∈ s.hold.entries, e.group ≠ g) →
            u = { s.withReports u with groups := s.groups.set g (r.faulted .exitFailed), outputs := [] }
            ∧ s.reports [.groupFault g r.depth .exitFailed r.cause] u))

/-- START_SETTLE_EXPIRY: the group goes on as at the end of the LINES wait: it sends EXIT with its cold flag if every line it
depends on is ON, else it waits for them (R28, R17, R120). The exit timeout is that of the cold exit, or of the depth (R17). Bit n of a line's dependency set stands for group n: the model's
reading (log entry 26). -/
def Obligations.StartSettleEnds : Prop :=
  (∀ (s : State) (g : GroupNo), s.groups[g].state = .waking → s.groups[g].wakeSub = some .lines →
    s.groups[g].timer = some 0 →
    let r := { s.groups[g] with timer := none }
    let ready := ∀ n : LineNo, s.slu.lines[n].deps.getLsbD g.val = true → s.slu.lines[n].state = .on
    (ready → exec (.startSettleExpiry g) s = .next (finish { s with
        groups := s.groups.set g (r.exiting s.timeouts), outputs := [.exit g r.coldExit] }))
      ∧ (¬ ready → exec (.startSettleExpiry g) s = .next (finish { s with
        groups := s.groups.set g r, slu := { s.slu with waiting := s.slu.waiting.set g true }, outputs := [] })))
    ∧ (∀ (s : State) (g : GroupNo), s.linesReady g = true ↔
      ∀ n : LineNo, s.slu.lines[n].deps.getLsbD g.val = true → s.slu.lines[n].state = .on)
    ∧ (∀ (t : Timeouts) (d : Depth), exitTimeout t true d = t.exitOff)
    ∧ ∀ t : Timeouts, [.d0, .nap, .retain, .off].map (exitTimeout t false) = [t.exitOff, t.exitNap, t.exitRetain, t.exitOff]

/-- The model's choices (log entries 3, 7 and 8): the expiry of a timer that has not run out, a sample where none is due, and a
transition to the level an input already has, change nothing; on an empty queue a step idles. -/
def Obligations.NothingDueNothingHappens : Prop :=
  (∀ s : State,
    (∀ g : GroupNo, s.groups[g].timer ≠ some 0 → exec (.entryTimeout g) s = .next (finish { s with outputs := [] })
        ∧ exec (.exitTimeout g) s = .next (finish { s with outputs := [] })
        ∧ exec (.startSettleExpiry g) s = .next (finish { s with outputs := [] }))
      ∧ (∀ n : LineNo, s.slu.lines[n].timer ≠ some 0 →
          exec (.settleExpiry n) s = .next (finish { s with outputs := [] }))
      ∧ (∀ n : WakeNo, s.wlu[n].mode ≠ .sampled ∨ s.wlu[n].sampleDue = false →
          exec (.wakeLineSample n) s = .next (finish { s with outputs := [] }))
      ∧ (∀ n : WakeNo, exec (.wakeInputTransition n s.wlu[n].lastLevel) s = .next (finish { s with outputs := [] })))
    ∧ (∀ s : State, s.pending = [] → step s = .next s)

/-- The idle target is the deepest depth whose threshold is nonzero and not above idle elapsed, that is not deeper than
deepest allowed, and, for OFF, of a group without a valid KEEP region (R6). -/
def Obligations.IdleTargetIsTheDeepestThatQualifies : Prop :=
  ∀ (s : State) (g : GroupNo),
    let r := s.groups[g]
    let keep := ∃ i : RegionNo, s.regions[i].valid = true ∧ groupOfPage s.straps s.regions[i].basePage = some g
      ∧ s.regions[i].policy = .keep
    let off := r.tOff ≠ 0 ∧ r.tOff ≤ r.idle ∧ r.deepest = .off ∧ ¬ keep
    let retain := r.tRetain ≠ 0 ∧ r.tRetain ≤ r.idle ∧ (r.deepest = .retain ∨ r.deepest = .off)
    let nap := r.tNap ≠ 0 ∧ r.tNap ≤ r.idle ∧ r.deepest ≠ .d0
    (off → s.idleTarget g = some .off)
      ∧ (¬ off → retain → s.idleTarget g = some .retain)
      ∧ (¬ off → ¬ retain → nap → s.idleTarget g = some .nap)
      ∧ (¬ off → ¬ retain → ¬ nap → s.idleTarget g = none)
      ∧ (s.hasKeep g = true ↔ keep)

/-- TU_TICK: part time goes up by 1; running timers lose one TU; idle elapsed advances in ACTIVE, DRAINING, ENTERING and ASLEEP
up to its limit and holds elsewhere; and the descent test acts: an ACTIVE group without held entries drains, or enters at
once with nothing in flight; an ASLEEP group enters a deeper depth, and a line found OFF that depends on it settles (R5, R6,
R7, R12, R116, R118, R129, R184; timers: log entry 7). That
the sample point of a TU is kept as a due flag of each wake line, set here, is the model's choice (log entry 8). Bit n of a
line's dependency set stands for group n: the model's reading (log entry 26). -/
def Obligations.TickAdvancesTime : Prop :=
  ∀ s : State, ∃ u : State, exec .tuTick s = .next (finish u)
    ∧ u = { s.withReports u with
        partTime := s.partTime + 1, groups := u.groups, slu := u.slu, wlu := u.wlu, outputs := u.outputs }
    ∧ ({ s with partTime := s.partTime + 1 } : State).reports [] u
    ∧ (∀ n : WakeNo, u.wlu[n] = { s.wlu[n] with sampleDue := (s.partTime + 1).toNat % 64 == 0 })
    ∧ (let descends := fun g : GroupNo => s.groups[g].state = .asleep
        ∧ ∃ d : Sleep, (s.setGroup g { s.groups[g] with idle := min (s.groups[g].idle + 1) 16777215 }).idleTarget g = some d
          ∧ s.groups[g].depth.num < d.toDepth.num
      (∀ n : LineNo,
          let l := { s.slu.lines[n] with timer := s.slu.lines[n].timer.map fun k => k - 1 }
          ((∃ g : GroupNo, descends g ∧ l.deps.getLsbD g.val = true) → u.slu.lines[n] = l.needed)
            ∧ ((∀ g : GroupNo, descends g → l.deps.getLsbD g.val = false) → u.slu.lines[n] = l))
        ∧ (∀ g : GroupNo, ¬ descends g → u.slu.view[g] = s.slu.view[g]) ∧ u.slu.waiting = s.slu.waiting)
    ∧ ∀ g : GroupNo,
        let r := { s.groups[g] with timer := s.groups[g].timer.map fun k => k - 1 }
        let a := { r with idle := min (r.idle + 1) 16777215 }
        let target := (s.setGroup g a).idleTarget g
        (r.state = .waking ∨ r.state = .scrubbing ∨ r.state = .faulted → u.groups[g] = r)
          ∧ (r.state = .draining ∨ r.state = .entering → u.groups[g] = a)
          ∧ (r.state = .active → target = none ∨ 0 < r.held → u.groups[g] = a)
          ∧ (∀ d : Sleep, r.state = .active → target = some d → r.held = 0 → r.inFlight ≠ 0 →
              u.groups[g] = { a with state := .draining, forced := false, target := some d })
          ∧ (∀ d : Sleep, r.state = .active → target = some d → r.held = 0 → r.inFlight = 0 →
              u.groups[g] =
                { a with state := .entering, forced := false, target := some d, timer := some s.timeouts.entry }
              ∧ .enter g d ∈ u.outputs)
          ∧ (∀ d : Sleep, r.state = .asleep → target = some d → r.depth.num < d.toDepth.num →
              u.groups[g] = { a with state := .entering, target := some d, timer := some s.timeouts.entry }
              ∧ .enter g d ∈ u.outputs ∧ u.slu.view[g] = none)
          ∧ (r.state = .asleep → (∀ d : Sleep, target = some d → d.toDepth.num ≤ r.depth.num) → u.groups[g] = a)

/-! ## Lines -/

/-- SETTLE_EXPIRY: the line is ON with its timer stopped, LINE_STATE is raised, and every waiting group whose lines are all ON
sends EXIT (R119, R120, R124). Bit n of a dependency set stands for group n: the model's reading (log entry 26). -/
def Obligations.SettleEndsOn : Prop :=
  ∀ (s : State) (n : LineNo), s.slu.lines[n].state = .settling → s.slu.lines[n].timer = some 0 →
    ∃ u : State, exec (.settleExpiry n) s = .next (finish u)
      ∧ u = { s.withReports u with
          groups := u.groups, outputs := u.outputs
          slu := { s.slu with
            lines := s.slu.lines.set n { s.slu.lines[n] with state := .on, timer := none }
            waiting := u.slu.waiting } }
      ∧ s.reports [.lineState n .on s.slu.lines[n].offLevel.other] u ∧ s.waitersServed u

/-- The claims of R24 on a group that is not the control group, by its state; both change nothing for the control group.
A cancelled drain examines the group's WAITING entries, in
admission order (R7, R76). Pre-wakes sent to a mask of groups act on each by its state. An admitted transaction's pre-wakes are sent last, when the
outcome of its decision and its ACTIVITY are done (R97, R98). Bit n of a mask of groups stands for group n: the model's
reading (log entry 26). -/
def Obligations.ClaimsActByTheGroupsState : Prop :=
  (∀ (s : State) (g : GroupNo) (c : ClassNo),
    let r := s.groups[g]
    (g = s.controlGroup → preWake g s = (s, []) ∧ wakeRequest g c s = (s, []))
      ∧ (g ≠ s.controlGroup →
        (r.state = .active → preWake g s = (s.setGroup g { r with idle := 0 }, []) ∧ wakeRequest g c s = (s, []))
        ∧ (r.state = .draining → r.forced = false →
            ∃ t : State, preWake g s = (t, s.toldActive g) ∧ wakeRequest g c s = (t, s.toldActive g)
              ∧ t = { s.withReports t with
                  groups := s.groups.set g { r with state := .active, target := none, idle := 0 } }
              ∧ s.reports [] t)
        ∧ (r.state = .entering ∨ (r.state = .draining ∧ r.forced = true) →
            preWake g s = (s.setGroup g { r with wakePending := true }, [])
              ∧ wakeRequest g c s = (s.setGroup g { r with wakePending := true }, []))
        ∧ (r.state = .asleep → s.outputs = [] →
            ∃ t : State, preWake g s = (t, [])
              ∧ t = { s.withReports t with groups := s.groups.set g t.groups[g], slu := t.slu, outputs := t.outputs }
              ∧ s.reports [] t ∧ s.wakeBegun t g (r.woken (r.depth == .off))
              ∧ wakeRequest g c s = ({ t with ac := { t.ac with counters := (t.ac.counters.set c
                  { t.ac.counters[c] with wakesCaused := t.ac.counters[c].wakesCaused + 1 }) } }, []))
        ∧ (r.state = .waking ∨ r.state = .scrubbing ∨ r.state = .faulted →
            preWake g s = (s, []) ∧ wakeRequest g c s = (s, []))))
    ∧ (∀ (s : State) (mask : BitVec 16), s.drainsAreEmpty →
      ∃ u : State, sendPreWakes mask s = u
        ∧ u = { s.withReports u with groups := u.groups, slu := u.slu, outputs := u.outputs }
        ∧ s.reports [] u ∧ s.preWoken u mask)
    ∧ (∀ (s : State) (r : Request) (g : GroupNo) (c : ClassNo),
      let p := s.ac.programme
      let k := p.classes[c]
      let s0 : State := { s with
        ac := { s.ac with programme := { p with classes := p.classes.set c { k with prewake := 0 } } } }
      s0.memoryAdmitted r g c →
        ∃ v : State, exec (.admission [r]) s0 = .next (finish v)
          ∧ exec (.admission [r]) s =
            .next (finish (sendPreWakes k.prewake { v with ac := { v.ac with programme := p } })))
    ∧ ∀ (s : State) (g : GroupNo), s.toldActive g =
      (s.hold.entries.filter fun e => decide (e.group = g ∧ e.state = .waiting)).map fun e => .examine e.ref

/-- WAKE_INPUT_TRANSITION to another level: the last level becomes it in every mode; RISE recognises a change to HIGH, FALL one to
LOW, BOTH each; OFF and SAMPLED none (R128). WAKE_LINE_SAMPLE of a line in mode SAMPLED whose sample is due, by the armed
flag and the level: the table of R129 (the due flag: log entry 8). A recognition pre-wakes the group set and raises
WAKE_LINE (R130), its notice after those that the pre-wakes bring about: the model's choice (log entry 27). -/
def Obligations.WakeInputsAreRecognised : Prop :=
  (∀ (s : State) (n : WakeNo) (l : Level), l ≠ s.wlu[n].lastLevel →
    let w := s.wlu[n]
    let t : State := { s with wlu := s.wlu.set n { w with lastLevel := l }, outputs := [] }
    let edge := (w.mode = .rise ∧ l = .high) ∨ (w.mode = .fall ∧ l = .low) ∨ w.mode = .both
    (¬ edge → exec (.wakeInputTransition n l) s = .next (finish t))
      ∧ (edge → ∃ u : State, exec (.wakeInputTransition n l) s = .next (finish u)
        ∧ u.wlu = t.wlu ∧ u = (sendPreWakes w.groups t).withReports u
        ∧ (sendPreWakes w.groups t).reports [.wakeLine n w.groups] u
        ∧ (w.groups = 0 → sendPreWakes w.groups t = t)))
    ∧ (∀ (s : State) (n : WakeNo), s.wlu[n].mode = .sampled → s.wlu[n].sampleDue = true →
    let w := s.wlu[n]
    let after := fun w' : WakeLine =>
      ({ s with wlu := s.wlu.set n { w' with sampleDue := false }, outputs := [] } : State)
    let i := Instr.wakeLineSample n
    (w.armed = true → w.lastLevel = .high → w.highRun + 1 < w.count →
        exec i s = .next (finish (after { w with highRun := w.highRun + 1 })))
      ∧ (w.armed = true → w.lastLevel = .high → w.count ≤ w.highRun + 1 →
          let t := after { w with armed := false, highRun := 0, lowRun := 0 }
          ∃ u : State, exec i s = .next (finish u) ∧ u = (sendPreWakes w.groups t).withReports u
            ∧ (sendPreWakes w.groups t).reports [.wakeLine n w.groups] u)
      ∧ (w.armed = true → w.lastLevel = .low → exec i s = .next (finish (after { w with highRun := 0 })))
      ∧ (w.armed = false → w.lastLevel = .low → w.lowRun + 1 < w.count →
          exec i s = .next (finish (after { w with lowRun := w.lowRun + 1 })))
      ∧ (w.armed = false → w.lastLevel = .low → w.count ≤ w.lowRun + 1 →
          exec i s = .next (finish (after { w with armed := true, highRun := 0, lowRun := 0 })))
      ∧ (w.armed = false → w.lastLevel = .high → exec i s = .next (finish (after { w with lowRun := 0 }))))

/-- A line is OFF after an evaluation exactly when its off condition holds, but for a line found ON or SETTLING without it,
which stays; a line that leaves OFF settles with its settle time loaded (R117, R118, R121). A line that goes OFF hands LINE_STATE
over, and each change of a line's state is mirrored (R124, R152). SUP0 to SUP7 follow the states:
the off level in OFF, the other level in ON and SETTLING (R115). Bit n of the dependency set stands
for group n: the model's reading (log entry 26). -/
def Obligations.EvaluationFollowsTheOffCondition : Prop :=
  (∀ (s : State) (n : LineNo),
    let l := s.slu.lines[n]
    let condition := l.forced = false ∧ l.deps ≠ 0 ∧ ∀ g : GroupNo, l.deps.getLsbD g.val = true →
      (s.slu.view[g] = some .off ∨ (s.slu.view[g] = some .retain ∧ l.threshold = .retain))
    ∃ u : State, evaluateLine n s = u
      ∧ u = { s.withReports u with slu := { s.slu with lines := s.slu.lines.set n u.slu.lines[n] } }
      ∧ (condition → l.state ≠ .off → u.slu.lines[n] = { l with state := .off, timer := none }
          ∧ s.reports [.lineState n .off l.offLevel] u ∧ u.cp.owesMirror)
      ∧ (¬ condition → l.state = .off → u = mirrorChange { s with
          slu := { s.slu with lines := s.slu.lines.set n { l with state := .settling, timer := some l.settle } } })
      ∧ (condition → l.state = .off → u = s) ∧ (¬ condition → l.state ≠ .off → u = s))
    ∧ (∀ (s : State) (l : SupplyLine), s.offCondition l = true ↔
      l.forced = false ∧ l.deps ≠ 0 ∧ ∀ g : GroupNo, l.deps.getLsbD g.val = true →
        (s.slu.view[g] = some .off ∨ (s.slu.view[g] = some .retain ∧ l.threshold = .retain)))
    ∧ (∀ (s : State) (g : GroupNo) (n : LineNo), s.lineNeeds g n = s.slu.lines[n].deps.getLsbD g.val)
    ∧ (∀ (s : State) (n : LineNo),
      let l := s.slu.lines[n]
      (l.state = .off → s.sup n = l.offLevel)
        ∧ (l.state = .on ∨ l.state = .settling → s.sup n = if l.offLevel = .low then .high else .low))
    ∧ (∀ l : SupplyLine,
      (l.state = .off → l.output = l.offLevel)
        ∧ (l.state = .on ∨ l.state = .settling → l.output = if l.offLevel = .low then .high else .low))
    ∧ [.low, .high].map Level.other = [.high, .low]

/-- IRQ_N is driven low exactly in ERROR_STOP, or while IRQ_ENABLE is nonzero and the published producer differs from the
consumer shadow, else high; after a cold or a warm reset it is high (R160). -/
def Obligations.InterruptFollowsItsInputs : Prop :=
  (∀ s : State, (s.irqN = .low ↔
      (s.cp.state = .errorStop ∨ (s.cp.irqEnable ≠ 0 ∧ s.cp.published ≠ s.cp.consumerShadow)))
    ∧ (s.irqN = .high ↔ ¬ (s.cp.state = .errorStop ∨ (s.cp.irqEnable ≠ 0 ∧ s.cp.published ≠ s.cp.consumerShadow))))
    ∧ ∀ (pins : ResetPins) (s : State),
      (∃ t : State, exec (.coldReset pins) s = .next t ∧ t.irqN = .high)
        ∧ (∃ t : State, exec (.warmReset pins) s = .next t ∧ t.irqN = .high)

/-! ## Ring commands: each is executed at the completion of its fetch (R154, R163) -/

/-- Every ring command but a SNAPSHOT with a legal clear flag ends at its execution event with one completion report, which
carries its kind, slot tag, sequence, issuer and part time; and one that is refused changes no state but the command
processor's and hands no notice over (R155, R163, R164). NOP ends OK with detail 0 and makes no claim (R165). A completion
takes a free slot, and the CP is in POSTING; with none free it is in WAIT_SPACE (R155, R186). That the two writes join the
list ahead of a mirror write of the change to POSTING is the model's choice (log entry 25).

A change of a group's state or depth, of a line's state or level, of the backpressure flag or of the CP state is mirrored:
a mirror write is appended where none is in the list; where one waits there, not yet set, nothing more is done; where it is
set in the CP write place or downstream re-mirror pending becomes 1; and in ERROR_STOP that alone (R152). So after every
command but a reset that makes such a change a mirror write is in the list, or re-mirror is pending.

A notice handed over in ERROR_STOP, or with four report slots free or fewer, is lost: its code joins the lost-notice set and
the total goes up, to its greatest value. Otherwise it takes the next slot; after lost notices NOTICE_OVERFLOW takes a slot
before it and clears both, and where that leaves four free, the notice starts a new set (R186, R187, R188); its writes join
the write list however many it holds: the model's choice (log entry 29). The notices and mirrored changes of an event come
to writes added, which are reports and mirror writes, to notices lost, and to re-mirror pending becoming 1. A report record
has the bytes and codes of 12.4 (R164, R183, R185, R192, R195); the codes of a LINE_STATE notice's state are the model's
reading (log entry 12). -/
def Obligations.RingCommandsEndWithTheirReport : Prop :=
  (∀ (s : State) (k : SlotNo) (h : InHand) (i : Instr) (tag : BitVec 16) (body : CmdBody), s.awaits k h →
    ringBody i = some (tag, body) → body ≠ .snapshot 0 → body ≠ .snapshot 1 →
      ∃ (r : Result) (d : BitVec 32) (ns : List Notice), s.executes k i (h.report tag body r d s.partTime) ns
        fun s' u => r ≠ .ok → r ≠ .accepted → ns = [] ∧ u = s')
    ∧ (∀ (s : State) (k : SlotNo) (h : InHand) (tag : BitVec 16), s.awaits k h →
    s.executes k (.nop tag) (h.report tag .nop .ok 0 s.partTime) [] fun s' u => u = s')
    ∧ (∀ (s : State) (n : Notice),
      let used := (s.cp.reportProducer - s.cp.consumerShadow).toNat
      let i := s.cp.reportProducer
      let overflow := Report.notice (.overflow s.cp.lostSet s.cp.lostTotal) s.partTime
      let code := 1#32 <<< n.code
      (s.cp.state = .errorStop ∨ 60 ≤ used → raiseNotice n s = { s with
          cp := { s.cp with lostSet := s.cp.lostSet ||| code, lostTotal := min (s.cp.lostTotal + 1) 4294967295 } })
        ∧ (s.cp.state ≠ .errorStop → used < 60 → s.cp.lostSet = 0 → ∃ (u : State) (ws : List CpWrite),
          raiseNotice n s = u ∧ reportWrites s.straps i (.notice n s.partTime) false ws
            ∧ u = { s.withReports u with
              cp := { s.cp with reportProducer := i + 1, writeList := s.cp.writeList ++ ws } })
        ∧ (s.cp.state ≠ .errorStop → used ≤ 58 → s.cp.lostSet ≠ 0 → ∃ (u : State) (ws vs : List CpWrite),
          raiseNotice n s = u ∧ reportWrites s.straps i overflow false ws
            ∧ reportWrites s.straps (i + 1) (.notice n s.partTime) false vs
            ∧ u = { s.withReports u with cp := { s.cp with
                reportProducer := i + 2, writeList := s.cp.writeList ++ ws ++ vs, lostSet := 0, lostTotal := 0 } })
        ∧ (s.cp.state ≠ .errorStop → used = 59 → s.cp.lostSet ≠ 0 → ∃ (u : State) (ws : List CpWrite),
          raiseNotice n s = u ∧ reportWrites s.straps i overflow false ws
            ∧ u = { s.withReports u with cp := { s.cp with
                reportProducer := i + 1, writeList := s.cp.writeList ++ ws, lostSet := code, lostTotal := 1 } }))
    ∧ (∀ s : State,
      let mirrors := ∃ w ∈ s.cp.writeList, w.kind = .mirror
      let isSet := s.cp.writeList.head?.map CpWrite.kind = some .mirror
        ∧ (s.dp.writePlace ≠ none
          ∨ (s.cp.orphan = false ∧ ∃ k : SlotNo, s.dp.slots[k].map Slot.source = some .cpWrite))
      let owing : State := { s with cp := { s.cp with reMirror := true } }
      (s.cp.state = .errorStop → mirrorChange s = owing)
        ∧ (s.cp.state ≠ .errorStop →
          (isSet → mirrorChange s = owing)
            ∧ (mirrors → ¬ isSet → mirrorChange s = s)
            ∧ (¬ mirrors → mirrorChange s = { s with
                cp := { s.cp with writeList := s.cp.writeList ++ [{ kind := .mirror, tx := none }] } }))
        ∧ (∀ (g : GroupNo) (r : GroupRec),
          let t : State := { s with groups := s.groups.set g r }
          (r.state = s.groups[g].state → r.depth = s.groups[g].depth → putGroup g r s = t)
            ∧ (r.state ≠ s.groups[g].state ∨ r.depth ≠ s.groups[g].depth → putGroup g r s = mirrorChange t))
        ∧ (∀ (n : LineNo) (l : SupplyLine),
          let t : State := { s with slu := { s.slu with lines := s.slu.lines.set n l } }
          (l.state = s.slu.lines[n].state → l.output = s.slu.lines[n].output → putLine n l s = t)
            ∧ (l.state ≠ s.slu.lines[n].state ∨ l.output ≠ s.slu.lines[n].output → putLine n l s = mirrorChange t))
        ∧ (∀ b : Bool, setBackpressure b s = mirrorChange { s with hold := { s.hold with backpressure := b } })
        ∧ (∀ st : CpState, (st = s.cp.state → setCpState st s = s)
          ∧ (st ≠ s.cp.state → setCpState st s = mirrorChange { s with cp := { s.cp with state := st } })))
    ∧ (∀ (i : Instr) (s t : State), (∀ pins : ResetPins, i ≠ .coldReset pins ∧ i ≠ .warmReset pins) →
      exec i s = .next t →
      ((∃ g : GroupNo, t.groups[g].state ≠ s.groups[g].state ∨ t.groups[g].depth ≠ s.groups[g].depth)
        ∨ (∃ n : LineNo, t.slu.lines[n].state ≠ s.slu.lines[n].state
          ∨ t.slu.lines[n].output ≠ s.slu.lines[n].output)
        ∨ t.hold.backpressure ≠ s.hold.backpressure ∨ t.cp.state ≠ s.cp.state) → t.cp.owesMirror)
    ∧ (∀ (s : State) (r : CompletionReport),
      let used := (s.cp.reportProducer - s.cp.consumerShadow).toNat
      let i := s.cp.reportProducer
      (64 ≤ used → postCompletion r s = setCpState .waitSpace s)
        ∧ (used < 64 → ∃ (ws : List CpWrite) (draws : Nat), reportWrites s.straps i (.completion r) true ws
          ∧ postCompletion r s = setCpState .posting { s with
            cp := { s.cp with reportProducer := i + 1, writeList := s.cp.writeList ++ ws }, freeDraws := draws }))
    ∧ (∀ (s u : State) (ns : List Notice), s.reports ns u →
      u.cp = { s.cp with
          writeList := u.cp.writeList, reportProducer := u.cp.reportProducer, reMirror := u.cp.reMirror
          lostSet := u.cp.lostSet, lostTotal := u.cp.lostTotal }
        ∧ (u.cp.reMirror = s.cp.reMirror ∨ u.cp.reMirror = true)
        ∧ ∃ ws : List CpWrite, u.cp.writeList = s.cp.writeList ++ ws
          ∧ (∀ w ∈ ws, w.kind = .record ∨ w.kind = .mirror ∨ ∃ v : BitVec 16, w.kind = .publish v false)
          ∧ (ns = [] → (∀ w ∈ ws, w.kind = .mirror) ∧ u.cp.reportProducer = s.cp.reportProducer
            ∧ u.cp.lostSet = s.cp.lostSet ∧ u.cp.lostTotal = s.cp.lostTotal)
          ∧ ∀ n ∈ ns,
            (∃ (i : BitVec 16) (vs : List CpWrite), vs <:+: ws
                ∧ reportWrites s.straps i (.notice n s.partTime) false vs)
              ∨ (u.cp.lostSet.getLsbD n.code = true ∧ 1 ≤ u.cp.lostTotal))
    ∧ (∀ (w : BitVec 16) (d : BitVec 32), le16 w = [w.extractLsb' 0 8, w.extractLsb' 8 8]
      ∧ le32 d = [d.extractLsb' 0 8, d.extractLsb' 8 8, d.extractLsb' 16 8, d.extractLsb' 24 8])
    ∧ (∀ (c : CompletionReport), reportImage (.completion c) =
      [1, c.kind, byteOf c.issuer.val, 0] ++ le32 c.time ++ le16 c.slotTag ++ le16 c.seq ++ [0, 0, 0, resultCode c.result]
        ++ le32 c.detail ++ zeros 12)
    ∧ (∀ (t codes : BitVec 32) (cause : Option (BitVec 16)) (g : GroupNo) (d : Depth) (x : Option Content)
      (why : FaultReason) (q : ReqNo) (tag : Tag) (kind : Kind) (c : ClassNo) (a : Addr) (n : LineNo) (wk : WakeNo)
      (st : LineState) (lv : Level) (v e : BitVec 16) (b : Bool) (o w total : Nat),
      let from' := match cause with
        | none => [0, 0, 0]
        | some s => le16 s ++ [1]
      let record := fun (m : Notice) (code requester group : Byte) (cause detail rest : List Byte) =>
        reportImage (.notice m t) =
          [2, code, requester, group] ++ le32 t ++ zeros 4 ++ cause ++ [0] ++ detail ++ rest
      let g' := byteOf g.val
      record (.groupAsleep g d cause) 1 0 g' from' (zeros 4) ([0, depthCode d] ++ zeros 10)
        ∧ record (.entryRefused g d cause) 2 0 g' from' (zeros 4) ([0, depthCode d] ++ zeros 10)
        ∧ record (.groupActive g x cause) 3 0 g' from' (zeros 4) ([0, 0, contentCode x] ++ zeros 9)
        ∧ record (.wakeRetry g d cause) 4 0 g' from' (zeros 4) ([0, depthCode d] ++ zeros 10)
        ∧ record (.groupFault g d why cause) 5 0 g' from' (le32 (faultCode why)) ([0, depthCode d] ++ zeros 10)
        ∧ record (.trapHit q g tag kind c a cause) 6 (byteOf q.val) g' from' (zeros 4)
            ([0, 0, 0, tag] ++ [a.extractLsb' 0 8, a.extractLsb' 8 8, a.extractLsb' 16 8, a.extractLsb' 24 8,
              a.extractLsb' 32 8] ++ [kindCode kind, byteOf c.val, 0])
        ∧ record (.queueHigh o w) 7 0 0 (zeros 3) [byteOf o, byteOf w, 0, 0] (zeros 12)
        ∧ record (.queueNormal o w) 8 0 0 (zeros 3) [byteOf o, byteOf w, 0, 0] (zeros 12)
        ∧ record (.lineState n st lv) 9 0 0 (zeros 3) [lineStateCode st, levelCode lv, 0, 0]
            ([byteOf n.val] ++ zeros 11)
        ∧ record (.wakeLine wk v) 10 0 0 (zeros 3) (le16 v ++ zeros 2) ([byteOf wk.val] ++ zeros 11)
        ∧ record (.ringProtocol b v) 11 0 0 (zeros 3) (le16 v ++ zeros 2) ([flagCode b] ++ zeros 11)
        ∧ record (.restartDone v e) 12 0 0 (zeros 3) (le16 v ++ le16 e) (zeros 12)
        ∧ record (.overflow codes total) 13 0 0 (zeros 3) (le32 codes)
            (zeros 4 ++ le32 (BitVec.ofNat 32 total) ++ zeros 4))
    ∧ [.ok, .accepted, .badKind, .badArgument, .conflict, .groupBusy, .groupPinned, .contentKept, .notHalted, .lineBusy,
        .noControlLeft].map resultCode = [0, 1, 2, 3, 4, 5, 6, 7, 8, 9, 10]
    ∧ [none, some .kept, some .lost, some .filled, some .lostFilled].map contentCode = [0, 1, 2, 3, 4]
    ∧ [.entryError, .entryTimeout, .exitFailed, .scrubFailed].map faultCode = [1, 2, 3, 4]
    ∧ [.read, .write].map kindCode = [0, 1] ∧ [.d0, .nap, .retain, .off].map depthCode = [0, 1, 2, 3]
    ∧ [.on, .settling, .off].map lineStateCode = [0, 1, 2] ∧ [.low, .high].map levelCode = [0, 1]
    ∧ [false, true].map flagCode = [0, 1] ∧ (∀ n : Nat, byteOf n = BitVec.ofNat 8 n)

/-- The model's choice (log entry 6): a ring command with no fetch downstream is no event and changes nothing, and COMPLETION of the
fetch with OK is the ring command that its 64 bytes spell. A stale fetch is discarded: fetch stale becomes 0, and a
waiting fetch may be offered (R159, R154). A fetch that the command processor does not wait for, as in ERROR_STOP, is
discarded (R157). A slot holds its tag, its kind and its arguments at the offsets of 12.3, the kinds being 1 to 18; bytes 3 to 7 are ignored. A slot
whose kind is none of the eighteen ends with BAD_KIND and the kind as detail (R154, R164, R165, R192, R194). -/
def Obligations.FetchedSlotsAreTakenOnce : Prop :=
  (∀ (s : State) (i : Instr) (tag : BitVec 16) (body : CmdBody), ringBody i = some (tag, body) →
    (s.dp.find .cpFetch = none → exec i s = .next (finish { s with outputs := [] }))
      ∧ (∀ k : SlotNo, s.dp.find .cpFetch = some k →
          let t : State := { s with dp := { s.dp with slots := s.dp.slots.set k none }, outputs := [] }
          (s.cp.fetchStale = true →
            let c := { s.cp with fetchStale := false }
            exec i s = .next (finish { t with dp := { t.dp with fetchPlace := t.fetchPlaceAfter c }, cp := c }))
            ∧ (s.cp.fetchStale = false → s.cp.state ≠ .fetching → exec i s = .next (finish t))))
    ∧ (∀ (s : State) (k : SlotNo) (h : InHand) (bytes : List Byte), s.awaits k h →
    s.dp.slots[k] = some { source := .cpFetch, kind := .read, length := 4 } → bytes.length = 64 →
      (∀ i : Instr, ringBody i = some (decodeSlot bytes) →
        exec (.completion k s.dp.generation .ok (some bytes)) s = exec i s)
      ∧ (∀ n : Byte, (decodeSlot bytes).2 = .unknown n →
        s.executes k (.completion k s.dp.generation .ok (some bytes))
          (h.report (decodeSlot bytes).1 (.unknown n) .badKind (n.setWidth 32) s.partTime) [] fun s' u => u = s'))
    ∧ (∀ (tag : BitVec 16) (body : CmdBody), (∀ n : Byte, body = .unknown n → n = 0 ∨ 0x12 < n.toNat) →
      (slotImage tag body).length = 64 ∧ decodeSlot (slotImage tag body) = (tag, body))
    ∧ (∀ (bytes : List Byte) (o : Nat) (b : Byte), 3 ≤ o → o ≤ 7 → decodeSlot (bytes.set o b) = decodeSlot bytes)
    ∧ (∀ (i : Instr) (tag : BitVec 16) (body : CmdBody), ringBody i = some (tag, body) → body.kind = match i with
      | .nop .. => 0x01
      | .setRegion .. => 0x02
      | .clearRegion .. => 0x03
      | .clearLost .. => 0x04
      | .setGroupPolicy .. => 0x05
      | .forceDepth .. => 0x06
      | .wakeGroups .. => 0x07
      | .recoverGroup .. => 0x08
      | .setLine .. => 0x09
      | .forceLine .. => 0x0A
      | .setWakeLine .. => 0x0B
      | .setElement .. => 0x0C
      | .setClass .. => 0x0D
      | .setRequester .. => 0x0E
      | .releaseTrap .. => 0x0F
      | .setQueueLimits .. => 0x10
      | .setTimeouts .. => 0x11
      | _ => 0x12)
    ∧ (∀ (d : DownPort) (source : SlotSource) (k : SlotNo), d.find source = some k ↔
      d.slots[k].map Slot.source = some source ∧ ∀ j : SlotNo, j < k → d.slots[j].map Slot.source ≠ some source)
    ∧ ∀ (d : DownPort) (source : SlotSource), d.isDown source = true ↔
      ∃ k : SlotNo, d.slots[k].map Slot.source = some source

/-- SET_REGION whose arguments are in range and whose region shares no page with another or with the control block, its group
ACTIVE, its old group not SCRUBBING, and no KEEP where OFF is allowed: every field of the descriptor is written (R166,
R167), with the codes of its row (R192, R194). CLEAR_REGION makes a descriptor invalid with lost flag 0, unless it is valid and its group SCRUBBING; CLEAR_LOST
clears the lost flag of a valid descriptor (R168). -/
def Obligations.RegionCommandsWriteDescriptors : Prop :=
  (∀ (s : State) (k : SlotNo) (h : InHand) (tag : BitVec 16) (i : RegionNo) (g : GroupNo) (pol rdb wrb : Byte)
    (base count fill : BitVec 32) (mask : BitVec 16) (policy : Policy) (rd wr : Bool), s.awaits k h →
    policy? pol = some policy → flag? rdb = some rd → flag? wrb = some wr →
    groupOfPage s.straps base.toNat = some g → 1 ≤ count.toNat → count.toNat ≤ 262144 →
    groupOfPage s.straps (base.toNat + count.toNat - 1) = some g →
    (∀ j : RegionNo, j ≠ i → s.regions[j].valid = true →
      base.toNat + count.toNat ≤ s.regions[j].basePage
        ∨ s.regions[j].basePage + s.regions[j].pageCount ≤ base.toNat) →
    (base.toNat + count.toNat ≤ controlPage s.straps ∨ controlPage s.straps + 2 ≤ base.toNat) →
    (s.regions[i].valid = true → ∀ o : GroupNo, groupOfPage s.straps s.regions[i].basePage = some o →
      s.groups[o].state ≠ .scrubbing) →
    s.groups[g].state = .active → ¬ (policy = .keep ∧ s.groups[g].deepest = .off) →
      s.executes k (.setRegion tag (byteOf i.val) pol rdb wrb base count fill mask)
        (h.report tag (.setRegion (byteOf i.val) pol rdb wrb base count fill mask) .ok 0 s.partTime) []
        fun s' u => u = { s' with regions := (s.regions.set i
          { valid := true, basePage := base.toNat, pageCount := count.toNat, policy := policy
            fill := if policy = .loseFill then some fill else none
            mask := mask, readAllowed := rd, writeAllowed := wr, lost := false }) })
    ∧ (∀ (s : State) (k : SlotNo) (h : InHand) (tag : BitVec 16) (i : RegionNo), s.awaits k h →
    ((s.regions[i].valid = true → ∀ g : GroupNo, groupOfPage s.straps s.regions[i].basePage = some g →
        s.groups[g].state ≠ .scrubbing) →
      s.executes k (.clearRegion tag (byteOf i.val)) (h.report tag (.clearRegion (byteOf i.val)) .ok 0 s.partTime) []
        fun s' u => u = { s' with regions := s.regions.set i { s.regions[i] with valid := false, lost := false } })
      ∧ (s.regions[i].valid = true →
        s.executes k (.clearLost tag (byteOf i.val)) (h.report tag (.clearLost (byteOf i.val)) .ok 0 s.partTime) []
          fun s' u => u = { s' with regions := s.regions.set i { s.regions[i] with lost := false } }))
    ∧ readsCodes policy? 0 [.keep, .loseOk, .loseFill] ∧ readsCodes flag? 0 [false, true]

/-- SET_GROUP_POLICY stores the four values and changes nothing else of the group (R169, R26). SET_QUEUE_LIMITS writes both
watermarks and applies the backpressure test, and its detail is the flag that leaves; where the flag changes QUEUE_HIGH or
QUEUE_NORMAL is raised and the change is mirrored (R180, R82, R83, R152), the notice ahead of the completion: the model's
choice (log entry 27). SET_TIMEOUTS writes the timeout set (R180). -/
def Obligations.PoliciesLimitsAndTimeoutsAreStored : Prop :=
  (∀ (s : State) (k : SlotNo) (h : InHand) (tag : BitVec 16) (g : GroupNo) (d : Depth) (tNap tRetain tOff : BitVec 32),
    s.awaits k h → tNap.toNat ≤ 16777215 → tRetain.toNat ≤ 16777215 → tOff.toNat ≤ 16777215 →
    (tNap ≠ 0 → tRetain ≠ 0 → tNap.toNat ≤ tRetain.toNat) → (tRetain ≠ 0 → tOff ≠ 0 → tRetain.toNat ≤ tOff.toNat) →
    (tNap ≠ 0 → tOff ≠ 0 → tNap.toNat ≤ tOff.toNat) → (g = s.controlGroup → d = .d0) →
    (d = .off → ∀ i : RegionNo, s.regions[i].valid = true →
      groupOfPage s.straps s.regions[i].basePage = some g → s.regions[i].policy ≠ .keep) →
      s.executes k (.setGroupPolicy tag (byteOf g.val) (depthCode d) tNap tRetain tOff)
        (h.report tag (.setGroupPolicy (byteOf g.val) (depthCode d) tNap tRetain tOff) .ok 0 s.partTime) []
        fun s' u => u = { s' with groups := (s.groups.set g
          { s.groups[g] with deepest := d, tNap := tNap.toNat, tRetain := tRetain.toNat, tOff := tOff.toNat }) })
    ∧ (∀ (s : State) (k : SlotNo) (h : InHand) (tag : BitVec 16), s.awaits k h →
    (∀ high low : Byte, 2 ≤ high.toNat → high.toNat ≤ 64 → 1 ≤ low.toNat → low.toNat < high.toNat →
      let n := s.hold.entries.length
      let flag := if s.hold.backpressure then decide (low.toNat < n) else decide (high.toNat ≤ n)
      s.executes k (.setQueueLimits tag high low)
        (h.report tag (.setQueueLimits high low) .ok (if flag then 1 else 0) s.partTime)
        ({ s.hold with high := high.toNat, low := low.toNat }.noticesAt n)
        fun s' u => u = { s' with hold := { s.hold with
            high := high.toNat, low := low.toNat, backpressure := flag } }
          ∧ (flag ≠ s.hold.backpressure → u.cp.owesMirror))
      ∧ (∀ entry nap retain off : BitVec 16, entry ≠ 0 → nap ≠ 0 → retain ≠ 0 → off ≠ 0 →
        s.executes k (.setTimeouts tag entry nap retain off)
          (h.report tag (.setTimeouts entry nap retain off) .ok 0 s.partTime) []
          fun s' u => u = { s' with timeouts :=
            { entry := entry.toNat, exitNap := nap.toNat, exitRetain := retain.toNat, exitOff := off.toNat } }))

/-- FORCE_DEPTH on an ACTIVE group with nothing held, not the control group and without KEEP content for OFF, is ACCEPTED: a
forced drain starts with the command's sequence as cause, and with nothing in flight ENTER is sent at once (R170, R8,
R12, R25). -/
def Obligations.ForceDepthStartsAForcedDrain : Prop :=
  ∀ (s : State) (k : SlotNo) (h : InHand) (tag : BitVec 16) (g : GroupNo) (d : Sleep), s.awaits k h →
    g ≠ s.controlGroup → s.groups[g].state = .active → s.groups[g].held = 0 →
    (d = .off → ∀ i : RegionNo, s.regions[i].valid = true →
      groupOfPage s.straps s.regions[i].basePage = some g → s.regions[i].policy ≠ .keep) →
      let p := { s.groups[g] with state := .draining, forced := true, target := some d, cause := some h.seq }
      s.executes k (.forceDepth tag (byteOf g.val) (depthCode d.toDepth))
        (h.report tag (.forceDepth (byteOf g.val) (depthCode d.toDepth)) .accepted (BitVec.ofNat 32 g.val) s.partTime) []
        fun s' u => (p.inFlight ≠ 0 → u = { s' with groups := s.groups.set g p })
          ∧ (p.inFlight = 0 → u = { s' with
              groups := s.groups.set g { p with state := .entering, timer := some s.timeouts.entry }
              outputs := [.enter g d] })

/-- WAKE_GROUPS sends each group of the mask a pre-wake, and its detail is the mask of the groups whose wake it started: the
ASLEEP ones (R171, R24). Groups in an unforced drain have no held entry, as in every state the part reaches (R7). Bit n of a
mask of groups stands for group n: the model's reading (log entry 26). -/
def Obligations.WakeGroupsWakesTheSleeping : Prop :=
  ∀ (s : State) (k : SlotNo) (h : InHand) (tag mask : BitVec 16), s.awaits k h → s.drainsAreEmpty →
    ∃ d : BitVec 32,
      (∀ g : GroupNo, d.getLsbD g.val = (mask.getLsbD g.val && decide (g ≠ s.controlGroup)
          && s.groups[g].state == .asleep))
      ∧ d.toNat < 65536
      ∧ s.executes k (.wakeGroups tag mask) (h.report tag (.wakeGroups mask) .ok d s.partTime) []
        fun s' u => u = { s' with groups := u.groups, slu := u.slu, outputs := u.outputs } ∧ s.preWoken u mask

/-- RECOVER_GROUP on a FAULTED group is ACCEPTED: the fault reason is absent, the cause is the command's sequence, and a wake with
the cold exit flag starts (R172, R23, R16). -/
def Obligations.RecoverStartsAColdWake : Prop :=
  ∀ (s : State) (k : SlotNo) (h : InHand) (tag : BitVec 16) (g : GroupNo), s.awaits k h →
    s.groups[g].state = .faulted →
      s.executes k (.recoverGroup tag (byteOf g.val))
        (h.report tag (.recoverGroup (byteOf g.val)) .accepted (BitVec.ofNat 32 g.val) s.partTime) []
        fun s' u => u = { s' with groups := s.groups.set g u.groups[g], slu := u.slu, outputs := u.outputs }
          ∧ s.wakeBegun u g ({ s.groups[g] with faultReason := none, cause := some h.seq }.woken true)

/-- SET_LINE on a line that is not SETTLING writes its four fields, evaluates the line and serves the waiting groups (R174, R122,
R117, R120); LINE_STATE is raised for a line that goes OFF, here as at FORCE_LINE (R124), ahead of the completion: the model's choice
(log entry 27). FORCE_LINE sets the forced flag (ON) or clears it (RELEASE) and evaluates the line; its detail is the state
the line is then in (R174, R123), with the codes of the LINE_STATE mirror (R192, R193): the model's reading (log entry 12).
SET_WAKE_LINE writes mode, sample count and group set, re-arms the line, and keeps the last level (R175, R131). The argument
codes are those of their rows (R192, R194). -/
def Obligations.LineCommandsRewriteTheLines : Prop :=
  (∀ (s : State) (k : SlotNo) (h : InHand) (tag deps settle : BitVec 16) (n : LineNo) (t : Threshold) (lv : Level)
    (tb : Byte), s.awaits k h → threshold? tb = some t → 1 ≤ settle.toNat → settle.toNat ≤ 4095 →
    s.slu.lines[n].state ≠ .settling →
      let l := { s.slu.lines[n] with deps := deps, threshold := t, offLevel := lv, settle := settle.toNat }
      let condition := s.offCondition l
      s.executes k (.setLine tag (byteOf n.val) tb (levelCode lv) deps settle)
        (h.report tag (.setLine (byteOf n.val) tb (levelCode lv) deps settle) .ok 0 s.partTime)
        (if l.state = .on ∧ condition = true then [.lineState n .off lv] else [])
        fun s' u => u = { s' with
            groups := u.groups, outputs := u.outputs
            slu := { s.slu with
              waiting := u.slu.waiting
              lines := s.slu.lines.set n (
                if l.state = .on ∧ condition = true then { l with state := .off, timer := none }
                else if l.state = .off ∧ condition = false then
                  { l with state := .settling, timer := some settle.toNat }
                else l) } }
          ∧ s.waitersServed u)
    ∧ (∀ (s : State) (k : SlotNo) (h : InHand) (tag : BitVec 16) (n : LineNo) (on : Bool), s.awaits k h →
    let l := { s.slu.lines[n] with forced := on }
    let condition := s.offCondition l
    let l' : SupplyLine :=
      if l.state ≠ .off ∧ condition = true then { l with state := .off, timer := none }
      else if l.state = .off ∧ condition = false then { l with state := .settling, timer := some l.settle }
      else l
    s.executes k (.forceLine tag (byteOf n.val) (flagCode on))
      (h.report tag (.forceLine (byteOf n.val) (flagCode on)) .ok ((lineStateCode l'.state).setWidth 32) s.partTime)
      (if l.state ≠ .off ∧ condition = true then [.lineState n .off l.offLevel] else [])
      fun s' u => u = { s' with slu := { s.slu with lines := s.slu.lines.set n l' } })
    ∧ (∀ (s : State) (k : SlotNo) (h : InHand) (tag groups : BitVec 16) (n : WakeNo) (mb cb : Byte) (m : WakeMode),
    s.awaits k h → wakeMode? mb = some m → 1 ≤ cb.toNat → cb.toNat ≤ 15 →
      s.executes k (.setWakeLine tag (byteOf n.val) mb cb groups)
        (h.report tag (.setWakeLine (byteOf n.val) mb cb groups) .ok 0 s.partTime) []
        fun s' u => u = { s' with wlu := (s.wlu.set n
          { s.wlu[n] with
            mode := m, count := cb.toNat, groups := groups, armed := true, highRun := 0, lowRun := 0 }) })
    ∧ readsCodes threshold? 2 [.retain, .off] ∧ readsCodes wakeMode? 0 [.off, .rise, .fall, .both, .sampled]
    ∧ [.low, .high].map levelCode = [0, 1] ∧ [false, true].map flagCode = [0, 1]
    ∧ [.on, .settling, .off].map lineStateCode = [0, 1, 2]

/-- SET_ELEMENT writes every field of the element; SET_CLASS writes the attributes, the pre-wake set and, for C1 to C7, the
terms of the class, and for C0 ignores the terms (R176, R177, R91). The argument
codes are those of their rows; a term names its elements by number, and one without element b reads neither it nor its
negation (R192, R194). That b negated is then stored as 0 is the model's choice (log entry 30). -/
def Obligations.ProgrammeIsWritten : Prop :=
  (∀ (s : State) (k : SlotNo) (h : InHand) (tag : BitVec 16), s.awaits k h →
    (∀ (e : ElemNo) (en : Bool) (kb : Byte) (kt : KindTest) (any hasData : Bool) (lo hi : BitVec 32)
      (pat mask : Vector Byte 8) (reqs : BitVec 16), kindTest? kb = some kt →
      (any = false → lo.toNat ≤ 4194303 ∧ hi.toNat ≤ 4194303) →
      s.executes k
        (.setElement tag (byteOf e.val) (flagCode en) kb (flagCode any) lo hi (flagCode hasData) pat mask reqs)
        (h.report tag
          (.setElement (byteOf e.val) (flagCode en) kb (flagCode any) lo hi (flagCode hasData) pat mask reqs)
          .ok 0 s.partTime) []
        fun s' u => u = { s' with ac := { s.ac with programme := { s.ac.programme with
          elements := s.ac.programme.elements.set e
            { enabled := en, mask := reqs, kindTest := kt
              window := if any then none else some (lo.toNat, hi.toNat)
              dataTest := if hasData then some (pat, mask) else none } } } })
      ∧ (∀ (c : ClassNo) (a w t : Bool) (pre : BitVec 16) (t0 t1 t2 t3 : TermArg) (x0 x1 x2 x3 : Term),
        (c ≠ 0 → term? t0 = some x0 ∧ term? t1 = some x1 ∧ term? t2 = some x2 ∧ term? t3 = some x3) →
        s.executes k (.setClass tag (byteOf c.val) (flagCode a) (flagCode w) (flagCode t) pre t0 t1 t2 t3)
          (h.report tag (.setClass (byteOf c.val) (flagCode a) (flagCode w) (flagCode t) pre t0 t1 t2 t3)
            .ok 0 s.partTime) []
          fun s' u => u = { s' with ac := { s.ac with programme := { s.ac.programme with
            classes := s.ac.programme.classes.set c
              { activity := a, wake := w, trap := t, prewake := pre
                terms := if c = 0 then Vector.replicate 4 { enabled := false, a := 0, b := none, bNegated := false }
                  else #v[x0, x1, x2, x3] } } } }))
    ∧ readsCodes kindTest? 0 [.read, .write, .any] ∧ [false, true].map flagCode = [0, 1]
    ∧ ∀ (t : TermArg) (x : Term), term? t = some x ↔
      t.enabled = flagCode x.enabled ∧ t.elementA = byteOf x.a.val
        ∧ match x.b with
          | none => t.hasB = 0 ∧ x.bNegated = false
          | some b => t.hasB = 1 ∧ t.elementB = byteOf b.val ∧ t.bNegated = flagCode x.bNegated

/-- SET_REQUESTER that leaves an enabled control requester writes the four fields and keeps the rest. With the mode unchanged
nothing else changes; a change to ORDERED returns the requester's READY entries behind an older one to WAITING with
ORDER; a change to RELAXED lets the younger of two held entries, an ORDER one for an ACTIVE group, go on behind one that
waits for a wake, its leaving raising the notice of the backpressure test, ahead of the completion: the model's choice (log
entry 27) (R178, R69, R70, R77, R78, R82). Without a change to RELAXED no notice is raised. The argument codes are those of its row (R192, R194). -/
def Obligations.SetRequesterRewritesTheRecord : Prop :=
  (∀ (s : State) (k : SlotNo) (h : InHand) (tag : BitVec 16) (q : ReqNo) (en ct : Bool) (m : Mode) (mb nb : Byte),
    s.awaits k h → mode? mb = some m → 1 ≤ nb.toNat → nb.toNat ≤ 32 →
    ((en = true ∧ ct = true) ∨ ∃ p : ReqNo, p ≠ q ∧ s.requesters[p].enabled = true ∧ s.requesters[p].control = true) →
      let t := s.requesters.set q { s.requesters[q] with enabled := en, mode := m, quota := nb.toNat, control := ct }
      ∃ ns : List Notice, (m = s.requesters[q].mode ∨ m = .ordered → ns = [])
      ∧ s.executes k (.setRequester tag (byteOf q.val) (flagCode en) mb nb (flagCode ct))
        (h.report tag (.setRequester (byteOf q.val) (flagCode en) mb nb (flagCode ct)) .ok 0 s.partTime) ns
        fun s' u => (m = s.requesters[q].mode → u = { s' with requesters := t })
          ∧ (m = .ordered → s.requesters[q].mode = .relaxed → u = { s' with
              requesters := t
              hold := { s.hold with entries := s.hold.entries.map fun e =>
                if e.requester = q ∧ e.state = .ready ∧ s.hold.isOldest e = false then
                  { e with state := .waiting, reason := .order } else e } })
          ∧ (u.requesters[q].enabled = en ∧ u.requesters[q].mode = m ∧ u.requesters[q].quota = nb.toNat
              ∧ u.requesters[q].control = ct ∧ u.requesters[q].halted = s.requesters[q].halted)
          ∧ (∀ e1 e2 : HoldEntry, m = .relaxed → s.requesters[q].mode = .ordered → s.hold.entries = [e1, e2] →
              e1.ref ≠ e2.ref → e1.requester = q → e2.requester = q → e1.state = .waiting → e1.reason = .wake →
              s.groups[e1.group].state ≠ .active → e2.state = .waiting → e2.reason = .order →
              s.groups[e2.group].state = .active → e2.tx.kind = .write → s.requesters[q].halted = false →
              s.dp.forward.length < 16 → u.hold.entries = [e1] ∧ u.dp.forward = s.dp.forward ++ [e2.ref]
              ∧ ns = s.hold.noticesAt 1))
    ∧ readsCodes mode? 0 [.ordered, .relaxed] ∧ [false, true].map flagCode = [0, 1]

/-- RELEASE_TRAP: what becomes of the trapped entry, and then of the HALT entries; the halt ends, and the detail is 0. DENY of
an entry alone in the hold queue answers it DENIED. FORWARD decides it by the group: FAULTED answers FAILED; ACTIVE or in an
unforced drain answers a READ of a lost region LOST, and sends the rest to the forward queue; else WAKE makes it wait with
reason WAKE and asks for the wake, and a class without WAKE answers ASLEEP. Behind an older entry of an ORDERED requester
it waits with reason ORDER, and asks for the wake of a group that is not ACTIVE where the class has WAKE. An occupancy at
the low watermark turns backpressure off and raises QUEUE_NORMAL. The HALT entries are then walked in admission order. One
whose class has no TRAP is decided in the same way, the halt being over. The first whose class has TRAP is the new trapped
entry: the requester is halted again, TRAP_HIT carries the command's sequence as cause, the detail is 1, and the entries
behind it stay as they are (R77, R79, R82, R110, R111, R179). These are its only notices; that they stand in the order of
their causes, ahead of the completion, is the model's choice (log entry 27). -/
def Obligations.ReleaseTrapDisposesOfTheEntry : Prop :=
  ∀ (s : State) (k : SlotNo) (h : InHand) (tag : BitVec 16) (e : HoldEntry), s.awaits k h → s.controlAwake →
    s.requesters[e.requester].halted = true → s.requesters[e.requester].trapped = some e.ref →
    e.state = .waiting → e.reason = .trap →
      let q := e.requester
      let releases := fun (b : Byte) (d : BitVec 32) (ns : List Notice) => s.executes k (.releaseTrap tag (byteOf q.val) b)
        (h.report tag (.releaseTrap (byteOf q.val) b) .ok d s.partTime) ns
      let empty := s.hold.noticesAt 0
      let lost := fun x : HoldEntry => x.tx.kind = .read
        ∧ ∃ i : RegionNo, s.lookup (pageOf x.tx.address) = some i ∧ s.regions[i].lost = true
      let runs := fun g : GroupNo =>
        s.groups[g].state = .active ∨ (s.groups[g].state = .draining ∧ s.groups[g].forced = false)
      let sleeps := fun g : GroupNo => ¬ runs g ∧ s.groups[g].state ≠ .faulted
      let wakes := fun x : HoldEntry => s.ac.programme.classes[x.cls].wake
      let asks := fun x : HoldEntry => decide (s.groups[x.group].state ≠ .active) && wakes x
      let halted := fun x : HoldEntry => x.requester = q ∧ x.state = .waiting ∧ x.reason = .halt
      let trap := fun x : HoldEntry => s.ac.programme.classes[x.cls].trap
      let roomLeft := s.dp.forward.length < 16
      (s.hold.entries = [e] →
        releases 1 0 empty (fun s' u => u = (s'.answeredHeld u e .denied []).unhalted q)
          ∧ (s.groups[e.group].state = .faulted →
            releases 0 0 empty fun s' u => u = (s'.answeredHeld u e .failed []).unhalted q)
          ∧ (runs e.group → lost e →
            releases 0 0 empty fun s' u => u = (s'.answeredHeld u e .lost []).unhalted q)
          ∧ (runs e.group → ¬ lost e → roomLeft →
            releases 0 0 empty fun s' u => u = (s'.moved u e []).unhalted q)
          ∧ (sleeps e.group → wakes e = true →
            releases 0 0 [] fun s' u => (s'.unhalted q).waitsOn u e [{ e with reason := .wake }] true)
          ∧ (sleeps e.group → wakes e = false →
            releases 0 0 empty fun s' u => u = (s'.answeredHeld u e .asleep []).unhalted q))
      ∧ (∀ x : HoldEntry, s.hold.entries = [x, e] → x.ref ≠ e.ref → x.requester = q → ¬ halted x →
          s.requesters[q].mode = .ordered →
          (s.groups[e.group].state = .draining → s.groups[e.group].forced = true) →
        releases 0 0 [] fun s' u => (s'.unhalted q).waitsOn u e [x, { e with reason := .order }] (asks e))
      ∧ (∀ x : HoldEntry, s.hold.entries = [e, x] → x.ref ≠ e.ref → halted x → trap x = false →
        let one := s.hold.noticesAt 1
        let last := { s.hold with backpressure := s.hold.flagAt 1 }.noticesAt 0
        let after := fun s' u : State => (s'.answeredHeld u e .denied [x]).unhalted q
        (s.groups[x.group].state = .faulted →
            releases 1 0 (one ++ last) fun s' u => u = (after s' u).answeredHeld u x .failed [])
          ∧ (runs x.group → lost x → releases 1 0 (one ++ last) fun s' u => u = (after s' u).answeredHeld u x .lost [])
          ∧ (runs x.group → ¬ lost x → roomLeft → releases 1 0 (one ++ last) fun s' u => u = (after s' u).moved u x [])
          ∧ (sleeps x.group → wakes x = true →
            releases 1 0 one fun s' u => (after s' u).waitsOn u x [{ x with reason := .wake }] true)
          ∧ (sleeps x.group → wakes x = false →
            releases 1 0 (one ++ last) fun s' u => u = (after s' u).answeredHeld u x .asleep []))
      ∧ (∀ (x : HoldEntry) (rest : List HoldEntry), s.hold.entries = e :: x :: rest →
          (s.hold.entries.map HoldEntry.ref).Nodup → halted x → trap x = true →
        releases 1 1 (s.hold.noticesAt (rest.length + 1)
            ++ [.trapHit q x.group x.ref.tag x.tx.kind x.cls x.tx.address (some h.seq)]) fun _ u =>
          u.hold.entries = { x with reason := .trap } :: rest ∧ u.requesters[q].halted = true
          ∧ u.requesters[q].trapped = some x.ref ∧ u.requesters[q].trapCount = s.requesters[q].trapCount + 1
          ∧ u.au.responses = s.au.responses ++ [.tracked e.ref])
      ∧ (∀ x y : HoldEntry, s.hold.entries = [e, x, y] → (s.hold.entries.map HoldEntry.ref).Nodup →
          halted x → trap x = false → sleeps x.group → wakes x = true → halted y →
          s.requesters[q].mode = .ordered →
        (trap y = false → s.groups[y.group].state = .active →
            releases 1 0 (s.hold.noticesAt 2) fun _ u =>
              u.hold.entries = [{ x with reason := .wake }, { y with reason := .order }]
                ∧ u.requesters[q].halted = false ∧ u.requesters[q].trapped = none)
          ∧ (trap y = true →
            releases 1 1 (s.hold.noticesAt 2
                ++ [.trapHit q y.group y.ref.tag y.tx.kind y.cls y.tx.address (some h.seq)]) fun _ u =>
              u.hold.entries = [{ x with reason := .wake }, { y with reason := .trap }]
                ∧ u.requesters[q].halted = true ∧ u.requesters[q].trapped = some y.ref))

/-- SNAPSHOT copies the statistics at its event, appends the four payload writes that carry them and stays in EXECUTING; with the
clear flag every counter becomes 0 and the peak the present occupancy, without it nothing changes outside the command
processor. At the completion of its last payload write it ends OK, its detail the part time of the copy (R155, R181,
R190, R191). The record's fields stand at the offsets of 12.5, its reserved bytes 0 (R196). -/
def Obligations.SnapshotCopiesAndClears : Prop :=
  (∀ (s : State) (k : SlotNo) (h : InHand) (tag : BitVec 16) (clear : Bool),
    (s.awaits k h →
      let image := s.statsRecord h.seq clear
      let write := fun last offset size =>
        ({ kind := .payload last
           tx := some (blockWrite s.straps (0x1400 + offset) ((image.drop offset).take size)
             (List.replicate size true)) } : CpWrite)
      let taken := { h with fetched := some (tag, .snapshot (flagCode clear)) }
      let begun := (s.afterCommand k s).executing taken
      ∃ u : State, exec (.snapshot tag (flagCode clear)) s = .next (finish u)
        ∧ u.cp.state = .executing
        ∧ u.cp = { begun with
            inHand := some { taken with copyTime := some s.partTime }
            writeList := begun.writeList
              ++ [write false 0 256, write false 256 256, write false 512 256, write true 768 64] }
        ∧ (clear = false → u = s.afterCommand k u)
        ∧ (clear = true → u = { s.afterCommand k u with
            ac := { s.ac with counters := Vector.replicate 8 {} }
            groups := s.groups.map fun r => { r with counters := {} }
            requesters := s.requesters.map fun r => { r with admitted := 0, denied := 0, trapCount := 0 }
            au := { s.au with controlAdmitted := 0, controlDenied := 0 }
            hold := { s.hold with peak := s.hold.entries.length } }))
      ∧ (∀ (n : Nat) (w : CpWrite) (ws : List CpWrite) (body : CmdBody) (t : BitVec 32),
        s.dp.slots[k] = some { source := .cpWrite, kind := .write, length := n } → s.cp.orphan = false →
        s.cp.writeList = w :: ws → w.kind = .payload true → s.cp.state = .executing → s.cp.inHand = some h →
        h.fetched = some (tag, body) → h.copyTime = some t →
          let r := h.report tag body .ok t s.partTime
          let ended := { s.cp with writeList := ws, inHand := some { h with completion := some r } }
          ∃ u : State, exec (.completion k s.dp.generation .ok none) s = .next (finish u)
            ∧ u = s.afterCommand k u ∧ u.completed r
            ∧ u = postCompletion r { s.afterCommand k s with cp := ended }))
    ∧ (∀ (s : State) (seq : BitVec 16) (clear : Bool),
      let b := s.statsRecord seq clear
      let word := wordAt32 b
      b.length = 832 ∧ word 0 = s.partTime ∧ wordAt16 b 4 = seq ∧ wordAt16 b 6 = s.cp.epoch ∧ byteAt b 8 = flagCode clear
        ∧ byteAt b 9 = byteOf s.hold.peak ∧ byteAt b 0xA = byteOf s.hold.entries.length
        ∧ (∀ c : ClassNo,
          let o := 0x10 + 28 * c.val
          let k := s.ac.counters[c]
          word o = k.admitted ∧ word (o + 4) = k.forwarded ∧ word (o + 8) = k.held ∧ word (o + 12) = k.refused
            ∧ word (o + 16) = k.wakesCaused ∧ word (o + 20) = k.readBytes ∧ word (o + 24) = k.writeBytes)
        ∧ (∀ g : GroupNo,
          let o := 0xF0 + 24 * g.val
          let k := s.groups[g].counters
          word o = k.toNap ∧ word (o + 4) = k.toRetain ∧ word (o + 8) = k.toOff ∧ word (o + 12) = k.wakes
            ∧ word (o + 16) = k.faults ∧ word (o + 20) = k.strays)
        ∧ (∀ q : ReqNo,
          let o := 0x270 + 12 * q.val
          let r := s.requesters[q]
          word o = r.admitted ∧ word (o + 4) = r.denied ∧ word (o + 8) = r.trapCount)
        ∧ word 0x330 = s.au.controlAdmitted ∧ word 0x334 = s.au.controlDenied
        ∧ ∀ o : Nat, (0xB ≤ o ∧ o < 0x10) ∨ 0x338 ≤ o → byteAt b o = 0)

/-- The refusals of every ring command but NOP and WAKE_GROUPS, which have none, name their reason, the first failing check
deciding. First the arguments in the order of their numbers, each outside its range or in a combination not allowed:
BAD_ARGUMENT with its number. Then the state checks: CONFLICT with the lowest-numbered region met or 48 for the control
block, GROUP_BUSY with group and state, GROUP_PINNED with the group, CONTENT_KEPT with the group's lowest-numbered KEEP
region or, for SET_REGION, its index, NOT_HALTED with the requester, LINE_BUSY with the line, NO_CONTROL_LEFT with the
requester. The state in a GROUP_BUSY detail is its code (12.2). A refused command changes nothing but the command processor (R163 to R166, R168 to R170, R172, R174 to R181,
R194). -/
def Obligations.RefusalsNameTheirReason : Prop :=
  (∀ (s : State) (k : SlotNo) (h : InHand) (tag : BitVec 16), s.awaits k h →
    let refused := fun (i : Instr) (r : Result) (d : BitVec 32) =>
      ∃ body : CmdBody, ringBody i = some (tag, body)
        ∧ s.executes k i (h.report tag body r d s.partTime) [] fun s' u => u = s'
    let checks := fun (i : Instr) => inOrder fun n => refused i .badArgument (BitVec.ofNat 32 n)
    let number := fun n : Nat => BitVec.ofNat 32 n
    let busy := fun g : GroupNo => BitVec.ofNat 32 (g.val + 256 * (groupStateCode s.groups[g].state).toNat)
    let keeps := fun (g : GroupNo) (i : RegionNo) => s.regions[i].valid = true
      ∧ groupOfPage s.straps s.regions[i].basePage = some g ∧ s.regions[i].policy = .keep
    let firstKeep := fun (g : GroupNo) (i : RegionNo) => keeps g i ∧ ∀ j : RegionNo, j < i → ¬ keeps g j
    let flag := fun b : Byte => 1 < b.toNat
    let badTerm := fun t : TermArg => flag t.enabled ∨ 24 ≤ t.elementA.toNat ∨ flag t.hasB
      ∨ (t.hasB = 1 ∧ (24 ≤ t.elementB.toNat ∨ flag t.bNegated))
    (∀ (index p rd wr : Byte) (base count fill : BitVec 32) (mask : BitVec 16),
        let i := Instr.setRegion tag index p rd wr base count fill mask
        let group := groupOfPage s.straps base.toNat
        let meets := fun b n : Nat => base.toNat < b + n ∧ b < base.toNat + count.toNat
        let overlaps := fun j : RegionNo =>
          j.val ≠ index.toNat ∧ s.regions[j].valid = true ∧ meets s.regions[j].basePage s.regions[j].pageCount
        checks i
          [(1, 48 ≤ index.toNat), (2, installedPages s.straps ≤ base.toNat),
            (3, count = 0 ∨ 262144 < count.toNat ∨ groupOfPage s.straps (base.toNat + count.toNat - 1) ≠ group),
            (4, 2 < p.toNat), (7, flag rd ∨ flag wr)]
          (∀ (n : RegionNo) (g : GroupNo), n.val = index.toNat → group = some g →
            let oldBusy := fun o : GroupNo => s.regions[n].valid = true
              ∧ groupOfPage s.straps s.regions[n].basePage = some o ∧ s.groups[o].state = .scrubbing
            (∀ j : RegionNo, overlaps j → (∀ x : RegionNo, x < j → ¬ overlaps x) → refused i .conflict (number j.val))
              ∧ ((∀ j : RegionNo, ¬ overlaps j) →
                (meets (controlPage s.straps) 2 → refused i .conflict 48)
                  ∧ (¬ meets (controlPage s.straps) 2 →
                    (∀ o : GroupNo, oldBusy o → refused i .groupBusy (busy o))
                      ∧ ((∀ o : GroupNo, ¬ oldBusy o) →
                        (s.groups[g].state ≠ .active → refused i .groupBusy (busy g))
                          ∧ (s.groups[g].state = .active → p = 0 → s.groups[g].deepest = .off →
                            refused i .contentKept (number index.toNat)))))))
      ∧ (∀ index : Byte, checks (.clearRegion tag index) [(1, 48 ≤ index.toNat)]
          (∀ (n : RegionNo) (g : GroupNo), n.val = index.toNat → s.regions[n].valid = true →
            groupOfPage s.straps s.regions[n].basePage = some g → s.groups[g].state = .scrubbing →
            refused (.clearRegion tag index) .groupBusy (busy g)))
      ∧ (∀ index : Byte, checks (.clearLost tag index)
          [(1, 48 ≤ index.toNat ∨ ∃ n : RegionNo, n.val = index.toNat ∧ s.regions[n].valid = false)] True)
      ∧ (∀ (group d : Byte) (n r o : BitVec 32),
        let i := Instr.setGroupPolicy tag group d n r o
        checks i
          [(1, 16 ≤ group.toNat), (2, 3 < d.toNat), (3, 16777215 < n.toNat), (4, 16777215 < r.toNat),
            (5, 16777215 < o.toNat ∨ (n ≠ 0 ∧ r ≠ 0 ∧ r.toNat < n.toNat) ∨ (r ≠ 0 ∧ o ≠ 0 ∧ o.toNat < r.toNat)
              ∨ (n ≠ 0 ∧ o ≠ 0 ∧ o.toNat < n.toNat))]
          (∀ g : GroupNo, g.val = group.toNat →
            (g = s.controlGroup → d ≠ 0 → refused i .groupPinned (number g.val))
              ∧ (g ≠ s.controlGroup → d = 3 → ∀ j : RegionNo, firstKeep g j →
                refused i .contentKept (number j.val))))
      ∧ (∀ group d : Byte,
        let i := Instr.forceDepth tag group d
        checks i [(1, 16 ≤ group.toNat), (2, d = 0 ∨ 3 < d.toNat)]
          (∀ g : GroupNo, g.val = group.toNat →
            (g = s.controlGroup → refused i .groupPinned (number g.val))
              ∧ (g ≠ s.controlGroup →
                (s.groups[g].state ≠ .active ∨ 0 < s.groups[g].held → refused i .groupBusy (busy g))
                  ∧ (s.groups[g].state = .active → s.groups[g].held = 0 → d = 3 → ∀ j : RegionNo, firstKeep g j →
                    refused i .contentKept (number j.val)))))
      ∧ (∀ group : Byte, checks (.recoverGroup tag group) [(1, 16 ≤ group.toNat)]
          (∀ g : GroupNo, g.val = group.toNat → s.groups[g].state ≠ .faulted →
            refused (.recoverGroup tag group) .groupBusy (busy g)))
      ∧ (∀ (line t lv : Byte) (deps settle : BitVec 16), checks (.setLine tag line t lv deps settle)
          [(1, 8 ≤ line.toNat), (3, t ≠ 2 ∧ t ≠ 3), (4, 1 < lv.toNat), (5, settle = 0 ∨ 4095 < settle.toNat)]
          (∀ n : LineNo, n.val = line.toNat → s.slu.lines[n].state = .settling →
            refused (.setLine tag line t lv deps settle) .lineBusy (number n.val)))
      ∧ (∀ line a : Byte, checks (.forceLine tag line a) [(1, 8 ≤ line.toNat), (2, flag a)] True)
      ∧ (∀ (line m c : Byte) (gs : BitVec 16), checks (.setWakeLine tag line m c gs)
          [(1, 4 ≤ line.toNat), (2, 4 < m.toNat), (3, c = 0 ∨ 15 < c.toNat)] True)
      ∧ (∀ (index en kt any hd : Byte) (lo hi : BitVec 32) (pat mask : Vector Byte 8) (reqs : BitVec 16),
        checks (.setElement tag index en kt any lo hi hd pat mask reqs)
          [(1, 24 ≤ index.toNat), (2, flag en), (4, 2 < kt.toNat),
            (5, flag any ∨ (any = 0 ∧ (4194303 < lo.toNat ∨ 4194303 < hi.toNat))), (6, flag hd)] True)
      ∧ (∀ (c a w t : Byte) (pre : BitVec 16) (t0 t1 t2 t3 : TermArg),
        checks (.setClass tag c a w t pre t0 t1 t2 t3)
          [(1, 8 ≤ c.toNat), (2, flag a ∨ flag w ∨ flag t), (4, c ≠ 0 ∧ badTerm t0), (5, c ≠ 0 ∧ badTerm t1),
            (6, c ≠ 0 ∧ badTerm t2), (7, c ≠ 0 ∧ badTerm t3)] True)
      ∧ (∀ q en m n ct : Byte, checks (.setRequester tag q en m n ct)
          [(1, 16 ≤ q.toNat), (2, flag en), (3, 1 < m.toNat), (4, n = 0 ∨ 32 < n.toNat), (5, flag ct)]
          (∀ r : ReqNo, r.val = q.toNat → ¬ (en = 1 ∧ ct = 1) →
            (∀ p : ReqNo, p ≠ r → s.requesters[p].enabled = false ∨ s.requesters[p].control = false) →
            refused (.setRequester tag q en m n ct) .noControlLeft (number r.val)))
      ∧ (∀ q d : Byte, checks (.releaseTrap tag q d) [(1, 16 ≤ q.toNat), (2, flag d)]
          (∀ r : ReqNo, r.val = q.toNat → s.requesters[r].halted = false →
            refused (.releaseTrap tag q d) .notHalted (number r.val)))
      ∧ (∀ high low : Byte, checks (.setQueueLimits tag high low)
          [(1, high.toNat < 2 ∨ 64 < high.toNat), (2, low = 0 ∨ high.toNat ≤ low.toNat)] True)
      ∧ (∀ e n r o : BitVec 16, checks (.setTimeouts tag e n r o) [(1, e = 0), (2, n = 0), (3, r = 0), (4, o = 0)] True)
      ∧ (∀ c : Byte, checks (.snapshot tag c) [(1, flag c)] True))
    ∧ [.active, .draining, .entering, .asleep, .waking, .scrubbing, .faulted].map groupStateCode = [0, 1, 2, 3, 4, 5, 6]
end

