-- ==== Sys2Proof/Laws/State.lean ====
section
/-! SUPPORT. Laws/State.lean: what each named update makes of each field of the state, so that no later proof unfolds a
record update. -/

namespace Sys2Proof.Machine.State

variable (s : State)

@[simp] theorem modCp_straps (f : CmdProc → CmdProc) : (s.modCp f).straps = s.straps := rfl
@[simp] theorem modCp_partTime (f : CmdProc → CmdProc) : (s.modCp f).partTime = s.partTime := rfl
@[simp] theorem modCp_timeouts (f : CmdProc → CmdProc) : (s.modCp f).timeouts = s.timeouts := rfl
@[simp] theorem modCp_groups (f : CmdProc → CmdProc) : (s.modCp f).groups = s.groups := rfl
@[simp] theorem modCp_regions (f : CmdProc → CmdProc) : (s.modCp f).regions = s.regions := rfl
@[simp] theorem modCp_scrub (f : CmdProc → CmdProc) : (s.modCp f).scrub = s.scrub := rfl
@[simp] theorem modCp_up (f : CmdProc → CmdProc) : (s.modCp f).up = s.up := rfl
@[simp] theorem modCp_au (f : CmdProc → CmdProc) : (s.modCp f).au = s.au := rfl
@[simp] theorem modCp_requesters (f : CmdProc → CmdProc) : (s.modCp f).requesters = s.requesters := rfl
@[simp] theorem modCp_hold (f : CmdProc → CmdProc) : (s.modCp f).hold = s.hold := rfl
@[simp] theorem modCp_ac (f : CmdProc → CmdProc) : (s.modCp f).ac = s.ac := rfl
@[simp] theorem modCp_slu (f : CmdProc → CmdProc) : (s.modCp f).slu = s.slu := rfl
@[simp] theorem modCp_wlu (f : CmdProc → CmdProc) : (s.modCp f).wlu = s.wlu := rfl
@[simp] theorem modCp_dp (f : CmdProc → CmdProc) : (s.modCp f).dp = s.dp := rfl
@[simp] theorem modCp_cp (f : CmdProc → CmdProc) : (s.modCp f).cp = f s.cp := rfl
@[simp] theorem modCp_outputs (f : CmdProc → CmdProc) : (s.modCp f).outputs = s.outputs := rfl
@[simp] theorem modCp_freeDraws (f : CmdProc → CmdProc) : (s.modCp f).freeDraws = s.freeDraws := rfl
@[simp] theorem modCp_pending (f : CmdProc → CmdProc) : (s.modCp f).pending = s.pending := rfl

@[simp] theorem modDp_straps (f : DownPort → DownPort) : (s.modDp f).straps = s.straps := rfl
@[simp] theorem modDp_partTime (f : DownPort → DownPort) : (s.modDp f).partTime = s.partTime := rfl
@[simp] theorem modDp_timeouts (f : DownPort → DownPort) : (s.modDp f).timeouts = s.timeouts := rfl
@[simp] theorem modDp_groups (f : DownPort → DownPort) : (s.modDp f).groups = s.groups := rfl
@[simp] theorem modDp_regions (f : DownPort → DownPort) : (s.modDp f).regions = s.regions := rfl
@[simp] theorem modDp_scrub (f : DownPort → DownPort) : (s.modDp f).scrub = s.scrub := rfl
@[simp] theorem modDp_up (f : DownPort → DownPort) : (s.modDp f).up = s.up := rfl
@[simp] theorem modDp_au (f : DownPort → DownPort) : (s.modDp f).au = s.au := rfl
@[simp] theorem modDp_requesters (f : DownPort → DownPort) : (s.modDp f).requesters = s.requesters := rfl
@[simp] theorem modDp_hold (f : DownPort → DownPort) : (s.modDp f).hold = s.hold := rfl
@[simp] theorem modDp_ac (f : DownPort → DownPort) : (s.modDp f).ac = s.ac := rfl
@[simp] theorem modDp_slu (f : DownPort → DownPort) : (s.modDp f).slu = s.slu := rfl
@[simp] theorem modDp_wlu (f : DownPort → DownPort) : (s.modDp f).wlu = s.wlu := rfl
@[simp] theorem modDp_dp (f : DownPort → DownPort) : (s.modDp f).dp = f s.dp := rfl
@[simp] theorem modDp_cp (f : DownPort → DownPort) : (s.modDp f).cp = s.cp := rfl
@[simp] theorem modDp_outputs (f : DownPort → DownPort) : (s.modDp f).outputs = s.outputs := rfl
@[simp] theorem modDp_freeDraws (f : DownPort → DownPort) : (s.modDp f).freeDraws = s.freeDraws := rfl
@[simp] theorem modDp_pending (f : DownPort → DownPort) : (s.modDp f).pending = s.pending := rfl

@[simp] theorem modHold_straps (f : HoldQueue → HoldQueue) : (s.modHold f).straps = s.straps := rfl
@[simp] theorem modHold_partTime (f : HoldQueue → HoldQueue) : (s.modHold f).partTime = s.partTime := rfl
@[simp] theorem modHold_timeouts (f : HoldQueue → HoldQueue) : (s.modHold f).timeouts = s.timeouts := rfl
@[simp] theorem modHold_groups (f : HoldQueue → HoldQueue) : (s.modHold f).groups = s.groups := rfl
@[simp] theorem modHold_regions (f : HoldQueue → HoldQueue) : (s.modHold f).regions = s.regions := rfl
@[simp] theorem modHold_scrub (f : HoldQueue → HoldQueue) : (s.modHold f).scrub = s.scrub := rfl
@[simp] theorem modHold_up (f : HoldQueue → HoldQueue) : (s.modHold f).up = s.up := rfl
@[simp] theorem modHold_au (f : HoldQueue → HoldQueue) : (s.modHold f).au = s.au := rfl
@[simp] theorem modHold_requesters (f : HoldQueue → HoldQueue) : (s.modHold f).requesters = s.requesters := rfl
@[simp] theorem modHold_hold (f : HoldQueue → HoldQueue) : (s.modHold f).hold = f s.hold := rfl
@[simp] theorem modHold_ac (f : HoldQueue → HoldQueue) : (s.modHold f).ac = s.ac := rfl
@[simp] theorem modHold_slu (f : HoldQueue → HoldQueue) : (s.modHold f).slu = s.slu := rfl
@[simp] theorem modHold_wlu (f : HoldQueue → HoldQueue) : (s.modHold f).wlu = s.wlu := rfl
@[simp] theorem modHold_dp (f : HoldQueue → HoldQueue) : (s.modHold f).dp = s.dp := rfl
@[simp] theorem modHold_cp (f : HoldQueue → HoldQueue) : (s.modHold f).cp = s.cp := rfl
@[simp] theorem modHold_outputs (f : HoldQueue → HoldQueue) : (s.modHold f).outputs = s.outputs := rfl
@[simp] theorem modHold_freeDraws (f : HoldQueue → HoldQueue) : (s.modHold f).freeDraws = s.freeDraws := rfl
@[simp] theorem modHold_pending (f : HoldQueue → HoldQueue) : (s.modHold f).pending = s.pending := rfl

@[simp] theorem modAu_straps (f : AdmissionUnit → AdmissionUnit) : (s.modAu f).straps = s.straps := rfl
@[simp] theorem modAu_partTime (f : AdmissionUnit → AdmissionUnit) : (s.modAu f).partTime = s.partTime := rfl
@[simp] theorem modAu_timeouts (f : AdmissionUnit → AdmissionUnit) : (s.modAu f).timeouts = s.timeouts := rfl
@[simp] theorem modAu_groups (f : AdmissionUnit → AdmissionUnit) : (s.modAu f).groups = s.groups := rfl
@[simp] theorem modAu_regions (f : AdmissionUnit → AdmissionUnit) : (s.modAu f).regions = s.regions := rfl
@[simp] theorem modAu_scrub (f : AdmissionUnit → AdmissionUnit) : (s.modAu f).scrub = s.scrub := rfl
@[simp] theorem modAu_up (f : AdmissionUnit → AdmissionUnit) : (s.modAu f).up = s.up := rfl
@[simp] theorem modAu_au (f : AdmissionUnit → AdmissionUnit) : (s.modAu f).au = f s.au := rfl
@[simp] theorem modAu_requesters (f : AdmissionUnit → AdmissionUnit) : (s.modAu f).requesters = s.requesters := rfl
@[simp] theorem modAu_hold (f : AdmissionUnit → AdmissionUnit) : (s.modAu f).hold = s.hold := rfl
@[simp] theorem modAu_ac (f : AdmissionUnit → AdmissionUnit) : (s.modAu f).ac = s.ac := rfl
@[simp] theorem modAu_slu (f : AdmissionUnit → AdmissionUnit) : (s.modAu f).slu = s.slu := rfl
@[simp] theorem modAu_wlu (f : AdmissionUnit → AdmissionUnit) : (s.modAu f).wlu = s.wlu := rfl
@[simp] theorem modAu_dp (f : AdmissionUnit → AdmissionUnit) : (s.modAu f).dp = s.dp := rfl
@[simp] theorem modAu_cp (f : AdmissionUnit → AdmissionUnit) : (s.modAu f).cp = s.cp := rfl
@[simp] theorem modAu_outputs (f : AdmissionUnit → AdmissionUnit) : (s.modAu f).outputs = s.outputs := rfl
@[simp] theorem modAu_freeDraws (f : AdmissionUnit → AdmissionUnit) : (s.modAu f).freeDraws = s.freeDraws := rfl
@[simp] theorem modAu_pending (f : AdmissionUnit → AdmissionUnit) : (s.modAu f).pending = s.pending := rfl

@[simp] theorem modUp_straps (f : UpPort → UpPort) : (s.modUp f).straps = s.straps := rfl
@[simp] theorem modUp_partTime (f : UpPort → UpPort) : (s.modUp f).partTime = s.partTime := rfl
@[simp] theorem modUp_timeouts (f : UpPort → UpPort) : (s.modUp f).timeouts = s.timeouts := rfl
@[simp] theorem modUp_groups (f : UpPort → UpPort) : (s.modUp f).groups = s.groups := rfl
@[simp] theorem modUp_regions (f : UpPort → UpPort) : (s.modUp f).regions = s.regions := rfl
@[simp] theorem modUp_scrub (f : UpPort → UpPort) : (s.modUp f).scrub = s.scrub := rfl
@[simp] theorem modUp_up (f : UpPort → UpPort) : (s.modUp f).up = f s.up := rfl
@[simp] theorem modUp_au (f : UpPort → UpPort) : (s.modUp f).au = s.au := rfl
@[simp] theorem modUp_requesters (f : UpPort → UpPort) : (s.modUp f).requesters = s.requesters := rfl
@[simp] theorem modUp_hold (f : UpPort → UpPort) : (s.modUp f).hold = s.hold := rfl
@[simp] theorem modUp_ac (f : UpPort → UpPort) : (s.modUp f).ac = s.ac := rfl
@[simp] theorem modUp_slu (f : UpPort → UpPort) : (s.modUp f).slu = s.slu := rfl
@[simp] theorem modUp_wlu (f : UpPort → UpPort) : (s.modUp f).wlu = s.wlu := rfl
@[simp] theorem modUp_dp (f : UpPort → UpPort) : (s.modUp f).dp = s.dp := rfl
@[simp] theorem modUp_cp (f : UpPort → UpPort) : (s.modUp f).cp = s.cp := rfl
@[simp] theorem modUp_outputs (f : UpPort → UpPort) : (s.modUp f).outputs = s.outputs := rfl
@[simp] theorem modUp_freeDraws (f : UpPort → UpPort) : (s.modUp f).freeDraws = s.freeDraws := rfl
@[simp] theorem modUp_pending (f : UpPort → UpPort) : (s.modUp f).pending = s.pending := rfl

@[simp] theorem modScrub_straps (f : Scrub → Scrub) : (s.modScrub f).straps = s.straps := rfl
@[simp] theorem modScrub_partTime (f : Scrub → Scrub) : (s.modScrub f).partTime = s.partTime := rfl
@[simp] theorem modScrub_timeouts (f : Scrub → Scrub) : (s.modScrub f).timeouts = s.timeouts := rfl
@[simp] theorem modScrub_groups (f : Scrub → Scrub) : (s.modScrub f).groups = s.groups := rfl
@[simp] theorem modScrub_regions (f : Scrub → Scrub) : (s.modScrub f).regions = s.regions := rfl
@[simp] theorem modScrub_scrub (f : Scrub → Scrub) : (s.modScrub f).scrub = f s.scrub := rfl
@[simp] theorem modScrub_up (f : Scrub → Scrub) : (s.modScrub f).up = s.up := rfl
@[simp] theorem modScrub_au (f : Scrub → Scrub) : (s.modScrub f).au = s.au := rfl
@[simp] theorem modScrub_requesters (f : Scrub → Scrub) : (s.modScrub f).requesters = s.requesters := rfl
@[simp] theorem modScrub_hold (f : Scrub → Scrub) : (s.modScrub f).hold = s.hold := rfl
@[simp] theorem modScrub_ac (f : Scrub → Scrub) : (s.modScrub f).ac = s.ac := rfl
@[simp] theorem modScrub_slu (f : Scrub → Scrub) : (s.modScrub f).slu = s.slu := rfl
@[simp] theorem modScrub_wlu (f : Scrub → Scrub) : (s.modScrub f).wlu = s.wlu := rfl
@[simp] theorem modScrub_dp (f : Scrub → Scrub) : (s.modScrub f).dp = s.dp := rfl
@[simp] theorem modScrub_cp (f : Scrub → Scrub) : (s.modScrub f).cp = s.cp := rfl
@[simp] theorem modScrub_outputs (f : Scrub → Scrub) : (s.modScrub f).outputs = s.outputs := rfl
@[simp] theorem modScrub_freeDraws (f : Scrub → Scrub) : (s.modScrub f).freeDraws = s.freeDraws := rfl
@[simp] theorem modScrub_pending (f : Scrub → Scrub) : (s.modScrub f).pending = s.pending := rfl

@[simp] theorem modSlu_straps (f : SupplyUnit → SupplyUnit) : (s.modSlu f).straps = s.straps := rfl
@[simp] theorem modSlu_partTime (f : SupplyUnit → SupplyUnit) : (s.modSlu f).partTime = s.partTime := rfl
@[simp] theorem modSlu_timeouts (f : SupplyUnit → SupplyUnit) : (s.modSlu f).timeouts = s.timeouts := rfl
@[simp] theorem modSlu_groups (f : SupplyUnit → SupplyUnit) : (s.modSlu f).groups = s.groups := rfl
@[simp] theorem modSlu_regions (f : SupplyUnit → SupplyUnit) : (s.modSlu f).regions = s.regions := rfl
@[simp] theorem modSlu_scrub (f : SupplyUnit → SupplyUnit) : (s.modSlu f).scrub = s.scrub := rfl
@[simp] theorem modSlu_up (f : SupplyUnit → SupplyUnit) : (s.modSlu f).up = s.up := rfl
@[simp] theorem modSlu_au (f : SupplyUnit → SupplyUnit) : (s.modSlu f).au = s.au := rfl
@[simp] theorem modSlu_requesters (f : SupplyUnit → SupplyUnit) : (s.modSlu f).requesters = s.requesters := rfl
@[simp] theorem modSlu_hold (f : SupplyUnit → SupplyUnit) : (s.modSlu f).hold = s.hold := rfl
@[simp] theorem modSlu_ac (f : SupplyUnit → SupplyUnit) : (s.modSlu f).ac = s.ac := rfl
@[simp] theorem modSlu_slu (f : SupplyUnit → SupplyUnit) : (s.modSlu f).slu = f s.slu := rfl
@[simp] theorem modSlu_wlu (f : SupplyUnit → SupplyUnit) : (s.modSlu f).wlu = s.wlu := rfl
@[simp] theorem modSlu_dp (f : SupplyUnit → SupplyUnit) : (s.modSlu f).dp = s.dp := rfl
@[simp] theorem modSlu_cp (f : SupplyUnit → SupplyUnit) : (s.modSlu f).cp = s.cp := rfl
@[simp] theorem modSlu_outputs (f : SupplyUnit → SupplyUnit) : (s.modSlu f).outputs = s.outputs := rfl
@[simp] theorem modSlu_freeDraws (f : SupplyUnit → SupplyUnit) : (s.modSlu f).freeDraws = s.freeDraws := rfl
@[simp] theorem modSlu_pending (f : SupplyUnit → SupplyUnit) : (s.modSlu f).pending = s.pending := rfl

@[simp] theorem modProgramme_straps (f : Programme → Programme) : (s.modProgramme f).straps = s.straps := rfl
@[simp] theorem modProgramme_partTime (f : Programme → Programme) : (s.modProgramme f).partTime = s.partTime := rfl
@[simp] theorem modProgramme_timeouts (f : Programme → Programme) : (s.modProgramme f).timeouts = s.timeouts := rfl
@[simp] theorem modProgramme_groups (f : Programme → Programme) : (s.modProgramme f).groups = s.groups := rfl
@[simp] theorem modProgramme_regions (f : Programme → Programme) : (s.modProgramme f).regions = s.regions := rfl
@[simp] theorem modProgramme_scrub (f : Programme → Programme) : (s.modProgramme f).scrub = s.scrub := rfl
@[simp] theorem modProgramme_up (f : Programme → Programme) : (s.modProgramme f).up = s.up := rfl
@[simp] theorem modProgramme_au (f : Programme → Programme) : (s.modProgramme f).au = s.au := rfl
@[simp] theorem modProgramme_requesters (f : Programme → Programme) : (s.modProgramme f).requesters = s.requesters := rfl
@[simp] theorem modProgramme_hold (f : Programme → Programme) : (s.modProgramme f).hold = s.hold := rfl
@[simp] theorem modProgramme_ac (f : Programme → Programme) : (s.modProgramme f).ac = { s.ac with programme := f s.ac.programme } := rfl
@[simp] theorem modProgramme_slu (f : Programme → Programme) : (s.modProgramme f).slu = s.slu := rfl
@[simp] theorem modProgramme_wlu (f : Programme → Programme) : (s.modProgramme f).wlu = s.wlu := rfl
@[simp] theorem modProgramme_dp (f : Programme → Programme) : (s.modProgramme f).dp = s.dp := rfl
@[simp] theorem modProgramme_cp (f : Programme → Programme) : (s.modProgramme f).cp = s.cp := rfl
@[simp] theorem modProgramme_outputs (f : Programme → Programme) : (s.modProgramme f).outputs = s.outputs := rfl
@[simp] theorem modProgramme_freeDraws (f : Programme → Programme) : (s.modProgramme f).freeDraws = s.freeDraws := rfl
@[simp] theorem modProgramme_pending (f : Programme → Programme) : (s.modProgramme f).pending = s.pending := rfl

@[simp] theorem modCount_straps (c : ClassNo) (f : ClassCounters → ClassCounters) :
    (s.modCount c f).straps = s.straps := rfl
@[simp] theorem modCount_partTime (c : ClassNo) (f : ClassCounters → ClassCounters) :
    (s.modCount c f).partTime = s.partTime := rfl
@[simp] theorem modCount_timeouts (c : ClassNo) (f : ClassCounters → ClassCounters) :
    (s.modCount c f).timeouts = s.timeouts := rfl
@[simp] theorem modCount_groups (c : ClassNo) (f : ClassCounters → ClassCounters) :
    (s.modCount c f).groups = s.groups := rfl
@[simp] theorem modCount_regions (c : ClassNo) (f : ClassCounters → ClassCounters) :
    (s.modCount c f).regions = s.regions := rfl
@[simp] theorem modCount_scrub (c : ClassNo) (f : ClassCounters → ClassCounters) :
    (s.modCount c f).scrub = s.scrub := rfl
@[simp] theorem modCount_up (c : ClassNo) (f : ClassCounters → ClassCounters) :
    (s.modCount c f).up = s.up := rfl
@[simp] theorem modCount_au (c : ClassNo) (f : ClassCounters → ClassCounters) :
    (s.modCount c f).au = s.au := rfl
@[simp] theorem modCount_requesters (c : ClassNo) (f : ClassCounters → ClassCounters) :
    (s.modCount c f).requesters = s.requesters := rfl
@[simp] theorem modCount_hold (c : ClassNo) (f : ClassCounters → ClassCounters) :
    (s.modCount c f).hold = s.hold := rfl
@[simp] theorem modCount_ac (c : ClassNo) (f : ClassCounters → ClassCounters) :
    (s.modCount c f).ac = { s.ac with counters := s.ac.counters.set c (f s.ac.counters[c]) } := rfl
@[simp] theorem modCount_slu (c : ClassNo) (f : ClassCounters → ClassCounters) :
    (s.modCount c f).slu = s.slu := rfl
@[simp] theorem modCount_wlu (c : ClassNo) (f : ClassCounters → ClassCounters) :
    (s.modCount c f).wlu = s.wlu := rfl
@[simp] theorem modCount_dp (c : ClassNo) (f : ClassCounters → ClassCounters) :
    (s.modCount c f).dp = s.dp := rfl
@[simp] theorem modCount_cp (c : ClassNo) (f : ClassCounters → ClassCounters) :
    (s.modCount c f).cp = s.cp := rfl
@[simp] theorem modCount_outputs (c : ClassNo) (f : ClassCounters → ClassCounters) :
    (s.modCount c f).outputs = s.outputs := rfl
@[simp] theorem modCount_freeDraws (c : ClassNo) (f : ClassCounters → ClassCounters) :
    (s.modCount c f).freeDraws = s.freeDraws := rfl
@[simp] theorem modCount_pending (c : ClassNo) (f : ClassCounters → ClassCounters) :
    (s.modCount c f).pending = s.pending := rfl

@[simp] theorem modReq_straps (q : ReqNo) (f : Requester → Requester) : (s.modReq q f).straps = s.straps := rfl
@[simp] theorem modReq_partTime (q : ReqNo) (f : Requester → Requester) : (s.modReq q f).partTime = s.partTime := rfl
@[simp] theorem modReq_timeouts (q : ReqNo) (f : Requester → Requester) : (s.modReq q f).timeouts = s.timeouts := rfl
@[simp] theorem modReq_groups (q : ReqNo) (f : Requester → Requester) : (s.modReq q f).groups = s.groups := rfl
@[simp] theorem modReq_regions (q : ReqNo) (f : Requester → Requester) : (s.modReq q f).regions = s.regions := rfl
@[simp] theorem modReq_scrub (q : ReqNo) (f : Requester → Requester) : (s.modReq q f).scrub = s.scrub := rfl
@[simp] theorem modReq_up (q : ReqNo) (f : Requester → Requester) : (s.modReq q f).up = s.up := rfl
@[simp] theorem modReq_au (q : ReqNo) (f : Requester → Requester) : (s.modReq q f).au = s.au := rfl
@[simp] theorem modReq_requesters (q : ReqNo) (f : Requester → Requester) : (s.modReq q f).requesters = s.requesters.set q (f s.requesters[q]) := rfl
@[simp] theorem modReq_hold (q : ReqNo) (f : Requester → Requester) : (s.modReq q f).hold = s.hold := rfl
@[simp] theorem modReq_ac (q : ReqNo) (f : Requester → Requester) : (s.modReq q f).ac = s.ac := rfl
@[simp] theorem modReq_slu (q : ReqNo) (f : Requester → Requester) : (s.modReq q f).slu = s.slu := rfl
@[simp] theorem modReq_wlu (q : ReqNo) (f : Requester → Requester) : (s.modReq q f).wlu = s.wlu := rfl
@[simp] theorem modReq_dp (q : ReqNo) (f : Requester → Requester) : (s.modReq q f).dp = s.dp := rfl
@[simp] theorem modReq_cp (q : ReqNo) (f : Requester → Requester) : (s.modReq q f).cp = s.cp := rfl
@[simp] theorem modReq_outputs (q : ReqNo) (f : Requester → Requester) : (s.modReq q f).outputs = s.outputs := rfl
@[simp] theorem modReq_freeDraws (q : ReqNo) (f : Requester → Requester) : (s.modReq q f).freeDraws = s.freeDraws := rfl
@[simp] theorem modReq_pending (q : ReqNo) (f : Requester → Requester) : (s.modReq q f).pending = s.pending := rfl

@[simp] theorem setGroup_straps (g : GroupNo) (r : GroupRec) : (s.setGroup g r).straps = s.straps := rfl
@[simp] theorem setGroup_partTime (g : GroupNo) (r : GroupRec) : (s.setGroup g r).partTime = s.partTime := rfl
@[simp] theorem setGroup_timeouts (g : GroupNo) (r : GroupRec) : (s.setGroup g r).timeouts = s.timeouts := rfl
@[simp] theorem setGroup_groups (g : GroupNo) (r : GroupRec) : (s.setGroup g r).groups = s.groups.set g r := rfl
@[simp] theorem setGroup_regions (g : GroupNo) (r : GroupRec) : (s.setGroup g r).regions = s.regions := rfl
@[simp] theorem setGroup_scrub (g : GroupNo) (r : GroupRec) : (s.setGroup g r).scrub = s.scrub := rfl
@[simp] theorem setGroup_up (g : GroupNo) (r : GroupRec) : (s.setGroup g r).up = s.up := rfl
@[simp] theorem setGroup_au (g : GroupNo) (r : GroupRec) : (s.setGroup g r).au = s.au := rfl
@[simp] theorem setGroup_requesters (g : GroupNo) (r : GroupRec) : (s.setGroup g r).requesters = s.requesters := rfl
@[simp] theorem setGroup_hold (g : GroupNo) (r : GroupRec) : (s.setGroup g r).hold = s.hold := rfl
@[simp] theorem setGroup_ac (g : GroupNo) (r : GroupRec) : (s.setGroup g r).ac = s.ac := rfl
@[simp] theorem setGroup_slu (g : GroupNo) (r : GroupRec) : (s.setGroup g r).slu = s.slu := rfl
@[simp] theorem setGroup_wlu (g : GroupNo) (r : GroupRec) : (s.setGroup g r).wlu = s.wlu := rfl
@[simp] theorem setGroup_dp (g : GroupNo) (r : GroupRec) : (s.setGroup g r).dp = s.dp := rfl
@[simp] theorem setGroup_cp (g : GroupNo) (r : GroupRec) : (s.setGroup g r).cp = s.cp := rfl
@[simp] theorem setGroup_outputs (g : GroupNo) (r : GroupRec) : (s.setGroup g r).outputs = s.outputs := rfl
@[simp] theorem setGroup_freeDraws (g : GroupNo) (r : GroupRec) : (s.setGroup g r).freeDraws = s.freeDraws := rfl
@[simp] theorem setGroup_pending (g : GroupNo) (r : GroupRec) : (s.setGroup g r).pending = s.pending := rfl

@[simp] theorem setRegion_straps (i : RegionNo) (r : Region) : (s.setRegion i r).straps = s.straps := rfl
@[simp] theorem setRegion_partTime (i : RegionNo) (r : Region) : (s.setRegion i r).partTime = s.partTime := rfl
@[simp] theorem setRegion_timeouts (i : RegionNo) (r : Region) : (s.setRegion i r).timeouts = s.timeouts := rfl
@[simp] theorem setRegion_groups (i : RegionNo) (r : Region) : (s.setRegion i r).groups = s.groups := rfl
@[simp] theorem setRegion_regions (i : RegionNo) (r : Region) : (s.setRegion i r).regions = s.regions.set i r := rfl
@[simp] theorem setRegion_scrub (i : RegionNo) (r : Region) : (s.setRegion i r).scrub = s.scrub := rfl
@[simp] theorem setRegion_up (i : RegionNo) (r : Region) : (s.setRegion i r).up = s.up := rfl
@[simp] theorem setRegion_au (i : RegionNo) (r : Region) : (s.setRegion i r).au = s.au := rfl
@[simp] theorem setRegion_requesters (i : RegionNo) (r : Region) : (s.setRegion i r).requesters = s.requesters := rfl
@[simp] theorem setRegion_hold (i : RegionNo) (r : Region) : (s.setRegion i r).hold = s.hold := rfl
@[simp] theorem setRegion_ac (i : RegionNo) (r : Region) : (s.setRegion i r).ac = s.ac := rfl
@[simp] theorem setRegion_slu (i : RegionNo) (r : Region) : (s.setRegion i r).slu = s.slu := rfl
@[simp] theorem setRegion_wlu (i : RegionNo) (r : Region) : (s.setRegion i r).wlu = s.wlu := rfl
@[simp] theorem setRegion_dp (i : RegionNo) (r : Region) : (s.setRegion i r).dp = s.dp := rfl
@[simp] theorem setRegion_cp (i : RegionNo) (r : Region) : (s.setRegion i r).cp = s.cp := rfl
@[simp] theorem setRegion_outputs (i : RegionNo) (r : Region) : (s.setRegion i r).outputs = s.outputs := rfl
@[simp] theorem setRegion_freeDraws (i : RegionNo) (r : Region) : (s.setRegion i r).freeDraws = s.freeDraws := rfl
@[simp] theorem setRegion_pending (i : RegionNo) (r : Region) : (s.setRegion i r).pending = s.pending := rfl

@[simp] theorem setLine_straps (n : LineNo) (r : SupplyLine) : (s.setLine n r).straps = s.straps := rfl
@[simp] theorem setLine_partTime (n : LineNo) (r : SupplyLine) : (s.setLine n r).partTime = s.partTime := rfl
@[simp] theorem setLine_timeouts (n : LineNo) (r : SupplyLine) : (s.setLine n r).timeouts = s.timeouts := rfl
@[simp] theorem setLine_groups (n : LineNo) (r : SupplyLine) : (s.setLine n r).groups = s.groups := rfl
@[simp] theorem setLine_regions (n : LineNo) (r : SupplyLine) : (s.setLine n r).regions = s.regions := rfl
@[simp] theorem setLine_scrub (n : LineNo) (r : SupplyLine) : (s.setLine n r).scrub = s.scrub := rfl
@[simp] theorem setLine_up (n : LineNo) (r : SupplyLine) : (s.setLine n r).up = s.up := rfl
@[simp] theorem setLine_au (n : LineNo) (r : SupplyLine) : (s.setLine n r).au = s.au := rfl
@[simp] theorem setLine_requesters (n : LineNo) (r : SupplyLine) : (s.setLine n r).requesters = s.requesters := rfl
@[simp] theorem setLine_hold (n : LineNo) (r : SupplyLine) : (s.setLine n r).hold = s.hold := rfl
@[simp] theorem setLine_ac (n : LineNo) (r : SupplyLine) : (s.setLine n r).ac = s.ac := rfl
@[simp] theorem setLine_slu (n : LineNo) (r : SupplyLine) : (s.setLine n r).slu = { s.slu with lines := s.slu.lines.set n r } := rfl
@[simp] theorem setLine_wlu (n : LineNo) (r : SupplyLine) : (s.setLine n r).wlu = s.wlu := rfl
@[simp] theorem setLine_dp (n : LineNo) (r : SupplyLine) : (s.setLine n r).dp = s.dp := rfl
@[simp] theorem setLine_cp (n : LineNo) (r : SupplyLine) : (s.setLine n r).cp = s.cp := rfl
@[simp] theorem setLine_outputs (n : LineNo) (r : SupplyLine) : (s.setLine n r).outputs = s.outputs := rfl
@[simp] theorem setLine_freeDraws (n : LineNo) (r : SupplyLine) : (s.setLine n r).freeDraws = s.freeDraws := rfl
@[simp] theorem setLine_pending (n : LineNo) (r : SupplyLine) : (s.setLine n r).pending = s.pending := rfl

@[simp] theorem setWakeLine_straps (n : WakeNo) (r : WakeLine) : (s.setWakeLine n r).straps = s.straps := rfl
@[simp] theorem setWakeLine_partTime (n : WakeNo) (r : WakeLine) : (s.setWakeLine n r).partTime = s.partTime := rfl
@[simp] theorem setWakeLine_timeouts (n : WakeNo) (r : WakeLine) : (s.setWakeLine n r).timeouts = s.timeouts := rfl
@[simp] theorem setWakeLine_groups (n : WakeNo) (r : WakeLine) : (s.setWakeLine n r).groups = s.groups := rfl
@[simp] theorem setWakeLine_regions (n : WakeNo) (r : WakeLine) : (s.setWakeLine n r).regions = s.regions := rfl
@[simp] theorem setWakeLine_scrub (n : WakeNo) (r : WakeLine) : (s.setWakeLine n r).scrub = s.scrub := rfl
@[simp] theorem setWakeLine_up (n : WakeNo) (r : WakeLine) : (s.setWakeLine n r).up = s.up := rfl
@[simp] theorem setWakeLine_au (n : WakeNo) (r : WakeLine) : (s.setWakeLine n r).au = s.au := rfl
@[simp] theorem setWakeLine_requesters (n : WakeNo) (r : WakeLine) : (s.setWakeLine n r).requesters = s.requesters := rfl
@[simp] theorem setWakeLine_hold (n : WakeNo) (r : WakeLine) : (s.setWakeLine n r).hold = s.hold := rfl
@[simp] theorem setWakeLine_ac (n : WakeNo) (r : WakeLine) : (s.setWakeLine n r).ac = s.ac := rfl
@[simp] theorem setWakeLine_slu (n : WakeNo) (r : WakeLine) : (s.setWakeLine n r).slu = s.slu := rfl
@[simp] theorem setWakeLine_wlu (n : WakeNo) (r : WakeLine) : (s.setWakeLine n r).wlu = s.wlu.set n r := rfl
@[simp] theorem setWakeLine_dp (n : WakeNo) (r : WakeLine) : (s.setWakeLine n r).dp = s.dp := rfl
@[simp] theorem setWakeLine_cp (n : WakeNo) (r : WakeLine) : (s.setWakeLine n r).cp = s.cp := rfl
@[simp] theorem setWakeLine_outputs (n : WakeNo) (r : WakeLine) : (s.setWakeLine n r).outputs = s.outputs := rfl
@[simp] theorem setWakeLine_freeDraws (n : WakeNo) (r : WakeLine) : (s.setWakeLine n r).freeDraws = s.freeDraws := rfl
@[simp] theorem setWakeLine_pending (n : WakeNo) (r : WakeLine) : (s.setWakeLine n r).pending = s.pending := rfl

@[simp] theorem setTimeouts_straps (t : Timeouts) : (s.setTimeouts t).straps = s.straps := rfl
@[simp] theorem setTimeouts_partTime (t : Timeouts) : (s.setTimeouts t).partTime = s.partTime := rfl
@[simp] theorem setTimeouts_timeouts (t : Timeouts) : (s.setTimeouts t).timeouts = t := rfl
@[simp] theorem setTimeouts_groups (t : Timeouts) : (s.setTimeouts t).groups = s.groups := rfl
@[simp] theorem setTimeouts_regions (t : Timeouts) : (s.setTimeouts t).regions = s.regions := rfl
@[simp] theorem setTimeouts_scrub (t : Timeouts) : (s.setTimeouts t).scrub = s.scrub := rfl
@[simp] theorem setTimeouts_up (t : Timeouts) : (s.setTimeouts t).up = s.up := rfl
@[simp] theorem setTimeouts_au (t : Timeouts) : (s.setTimeouts t).au = s.au := rfl
@[simp] theorem setTimeouts_requesters (t : Timeouts) : (s.setTimeouts t).requesters = s.requesters := rfl
@[simp] theorem setTimeouts_hold (t : Timeouts) : (s.setTimeouts t).hold = s.hold := rfl
@[simp] theorem setTimeouts_ac (t : Timeouts) : (s.setTimeouts t).ac = s.ac := rfl
@[simp] theorem setTimeouts_slu (t : Timeouts) : (s.setTimeouts t).slu = s.slu := rfl
@[simp] theorem setTimeouts_wlu (t : Timeouts) : (s.setTimeouts t).wlu = s.wlu := rfl
@[simp] theorem setTimeouts_dp (t : Timeouts) : (s.setTimeouts t).dp = s.dp := rfl
@[simp] theorem setTimeouts_cp (t : Timeouts) : (s.setTimeouts t).cp = s.cp := rfl
@[simp] theorem setTimeouts_outputs (t : Timeouts) : (s.setTimeouts t).outputs = s.outputs := rfl
@[simp] theorem setTimeouts_freeDraws (t : Timeouts) : (s.setTimeouts t).freeDraws = s.freeDraws := rfl
@[simp] theorem setTimeouts_pending (t : Timeouts) : (s.setTimeouts t).pending = s.pending := rfl

@[simp] theorem setPartTime_straps (t : BitVec 32) : (s.setPartTime t).straps = s.straps := rfl
@[simp] theorem setPartTime_partTime (t : BitVec 32) : (s.setPartTime t).partTime = t := rfl
@[simp] theorem setPartTime_timeouts (t : BitVec 32) : (s.setPartTime t).timeouts = s.timeouts := rfl
@[simp] theorem setPartTime_groups (t : BitVec 32) : (s.setPartTime t).groups = s.groups := rfl
@[simp] theorem setPartTime_regions (t : BitVec 32) : (s.setPartTime t).regions = s.regions := rfl
@[simp] theorem setPartTime_scrub (t : BitVec 32) : (s.setPartTime t).scrub = s.scrub := rfl
@[simp] theorem setPartTime_up (t : BitVec 32) : (s.setPartTime t).up = s.up := rfl
@[simp] theorem setPartTime_au (t : BitVec 32) : (s.setPartTime t).au = s.au := rfl
@[simp] theorem setPartTime_requesters (t : BitVec 32) : (s.setPartTime t).requesters = s.requesters := rfl
@[simp] theorem setPartTime_hold (t : BitVec 32) : (s.setPartTime t).hold = s.hold := rfl
@[simp] theorem setPartTime_ac (t : BitVec 32) : (s.setPartTime t).ac = s.ac := rfl
@[simp] theorem setPartTime_slu (t : BitVec 32) : (s.setPartTime t).slu = s.slu := rfl
@[simp] theorem setPartTime_wlu (t : BitVec 32) : (s.setPartTime t).wlu = s.wlu := rfl
@[simp] theorem setPartTime_dp (t : BitVec 32) : (s.setPartTime t).dp = s.dp := rfl
@[simp] theorem setPartTime_cp (t : BitVec 32) : (s.setPartTime t).cp = s.cp := rfl
@[simp] theorem setPartTime_outputs (t : BitVec 32) : (s.setPartTime t).outputs = s.outputs := rfl
@[simp] theorem setPartTime_freeDraws (t : BitVec 32) : (s.setPartTime t).freeDraws = s.freeDraws := rfl
@[simp] theorem setPartTime_pending (t : BitVec 32) : (s.setPartTime t).pending = s.pending := rfl

@[simp] theorem setOutputs_straps (o : List Output) : (s.setOutputs o).straps = s.straps := rfl
@[simp] theorem setOutputs_partTime (o : List Output) : (s.setOutputs o).partTime = s.partTime := rfl
@[simp] theorem setOutputs_timeouts (o : List Output) : (s.setOutputs o).timeouts = s.timeouts := rfl
@[simp] theorem setOutputs_groups (o : List Output) : (s.setOutputs o).groups = s.groups := rfl
@[simp] theorem setOutputs_regions (o : List Output) : (s.setOutputs o).regions = s.regions := rfl
@[simp] theorem setOutputs_scrub (o : List Output) : (s.setOutputs o).scrub = s.scrub := rfl
@[simp] theorem setOutputs_up (o : List Output) : (s.setOutputs o).up = s.up := rfl
@[simp] theorem setOutputs_au (o : List Output) : (s.setOutputs o).au = s.au := rfl
@[simp] theorem setOutputs_requesters (o : List Output) : (s.setOutputs o).requesters = s.requesters := rfl
@[simp] theorem setOutputs_hold (o : List Output) : (s.setOutputs o).hold = s.hold := rfl
@[simp] theorem setOutputs_ac (o : List Output) : (s.setOutputs o).ac = s.ac := rfl
@[simp] theorem setOutputs_slu (o : List Output) : (s.setOutputs o).slu = s.slu := rfl
@[simp] theorem setOutputs_wlu (o : List Output) : (s.setOutputs o).wlu = s.wlu := rfl
@[simp] theorem setOutputs_dp (o : List Output) : (s.setOutputs o).dp = s.dp := rfl
@[simp] theorem setOutputs_cp (o : List Output) : (s.setOutputs o).cp = s.cp := rfl
@[simp] theorem setOutputs_outputs (o : List Output) : (s.setOutputs o).outputs = o := rfl
@[simp] theorem setOutputs_freeDraws (o : List Output) : (s.setOutputs o).freeDraws = s.freeDraws := rfl
@[simp] theorem setOutputs_pending (o : List Output) : (s.setOutputs o).pending = s.pending := rfl

@[simp] theorem setFreeDraws_straps (n : Nat) : (s.setFreeDraws n).straps = s.straps := rfl
@[simp] theorem setFreeDraws_partTime (n : Nat) : (s.setFreeDraws n).partTime = s.partTime := rfl
@[simp] theorem setFreeDraws_timeouts (n : Nat) : (s.setFreeDraws n).timeouts = s.timeouts := rfl
@[simp] theorem setFreeDraws_groups (n : Nat) : (s.setFreeDraws n).groups = s.groups := rfl
@[simp] theorem setFreeDraws_regions (n : Nat) : (s.setFreeDraws n).regions = s.regions := rfl
@[simp] theorem setFreeDraws_scrub (n : Nat) : (s.setFreeDraws n).scrub = s.scrub := rfl
@[simp] theorem setFreeDraws_up (n : Nat) : (s.setFreeDraws n).up = s.up := rfl
@[simp] theorem setFreeDraws_au (n : Nat) : (s.setFreeDraws n).au = s.au := rfl
@[simp] theorem setFreeDraws_requesters (n : Nat) : (s.setFreeDraws n).requesters = s.requesters := rfl
@[simp] theorem setFreeDraws_hold (n : Nat) : (s.setFreeDraws n).hold = s.hold := rfl
@[simp] theorem setFreeDraws_ac (n : Nat) : (s.setFreeDraws n).ac = s.ac := rfl
@[simp] theorem setFreeDraws_slu (n : Nat) : (s.setFreeDraws n).slu = s.slu := rfl
@[simp] theorem setFreeDraws_wlu (n : Nat) : (s.setFreeDraws n).wlu = s.wlu := rfl
@[simp] theorem setFreeDraws_dp (n : Nat) : (s.setFreeDraws n).dp = s.dp := rfl
@[simp] theorem setFreeDraws_cp (n : Nat) : (s.setFreeDraws n).cp = s.cp := rfl
@[simp] theorem setFreeDraws_outputs (n : Nat) : (s.setFreeDraws n).outputs = s.outputs := rfl
@[simp] theorem setFreeDraws_freeDraws (n : Nat) : (s.setFreeDraws n).freeDraws = n := rfl
@[simp] theorem setFreeDraws_pending (n : Nat) : (s.setFreeDraws n).pending = s.pending := rfl

@[simp] theorem setPending_straps (p : List Instr) : (s.setPending p).straps = s.straps := rfl
@[simp] theorem setPending_partTime (p : List Instr) : (s.setPending p).partTime = s.partTime := rfl
@[simp] theorem setPending_timeouts (p : List Instr) : (s.setPending p).timeouts = s.timeouts := rfl
@[simp] theorem setPending_groups (p : List Instr) : (s.setPending p).groups = s.groups := rfl
@[simp] theorem setPending_regions (p : List Instr) : (s.setPending p).regions = s.regions := rfl
@[simp] theorem setPending_scrub (p : List Instr) : (s.setPending p).scrub = s.scrub := rfl
@[simp] theorem setPending_up (p : List Instr) : (s.setPending p).up = s.up := rfl
@[simp] theorem setPending_au (p : List Instr) : (s.setPending p).au = s.au := rfl
@[simp] theorem setPending_requesters (p : List Instr) : (s.setPending p).requesters = s.requesters := rfl
@[simp] theorem setPending_hold (p : List Instr) : (s.setPending p).hold = s.hold := rfl
@[simp] theorem setPending_ac (p : List Instr) : (s.setPending p).ac = s.ac := rfl
@[simp] theorem setPending_slu (p : List Instr) : (s.setPending p).slu = s.slu := rfl
@[simp] theorem setPending_wlu (p : List Instr) : (s.setPending p).wlu = s.wlu := rfl
@[simp] theorem setPending_dp (p : List Instr) : (s.setPending p).dp = s.dp := rfl
@[simp] theorem setPending_cp (p : List Instr) : (s.setPending p).cp = s.cp := rfl
@[simp] theorem setPending_outputs (p : List Instr) : (s.setPending p).outputs = s.outputs := rfl
@[simp] theorem setPending_freeDraws (p : List Instr) : (s.setPending p).freeDraws = s.freeDraws := rfl
@[simp] theorem setPending_pending (p : List Instr) : (s.setPending p).pending = p := rfl

@[simp] theorem emit_straps (o : Output) : (s.emit o).straps = s.straps := rfl
@[simp] theorem emit_partTime (o : Output) : (s.emit o).partTime = s.partTime := rfl
@[simp] theorem emit_timeouts (o : Output) : (s.emit o).timeouts = s.timeouts := rfl
@[simp] theorem emit_groups (o : Output) : (s.emit o).groups = s.groups := rfl
@[simp] theorem emit_regions (o : Output) : (s.emit o).regions = s.regions := rfl
@[simp] theorem emit_scrub (o : Output) : (s.emit o).scrub = s.scrub := rfl
@[simp] theorem emit_up (o : Output) : (s.emit o).up = s.up := rfl
@[simp] theorem emit_au (o : Output) : (s.emit o).au = s.au := rfl
@[simp] theorem emit_requesters (o : Output) : (s.emit o).requesters = s.requesters := rfl
@[simp] theorem emit_hold (o : Output) : (s.emit o).hold = s.hold := rfl
@[simp] theorem emit_ac (o : Output) : (s.emit o).ac = s.ac := rfl
@[simp] theorem emit_slu (o : Output) : (s.emit o).slu = s.slu := rfl
@[simp] theorem emit_wlu (o : Output) : (s.emit o).wlu = s.wlu := rfl
@[simp] theorem emit_dp (o : Output) : (s.emit o).dp = s.dp := rfl
@[simp] theorem emit_cp (o : Output) : (s.emit o).cp = s.cp := rfl
@[simp] theorem emit_outputs (o : Output) : (s.emit o).outputs = s.outputs ++ [o] := rfl
@[simp] theorem emit_freeDraws (o : Output) : (s.emit o).freeDraws = s.freeDraws := rfl
@[simp] theorem emit_pending (o : Output) : (s.emit o).pending = s.pending := rfl

@[simp] theorem begin_straps : s.begin.straps = s.straps := rfl
@[simp] theorem begin_partTime : s.begin.partTime = s.partTime := rfl
@[simp] theorem begin_timeouts : s.begin.timeouts = s.timeouts := rfl
@[simp] theorem begin_groups : s.begin.groups = s.groups := rfl
@[simp] theorem begin_regions : s.begin.regions = s.regions := rfl
@[simp] theorem begin_scrub : s.begin.scrub = s.scrub := rfl
@[simp] theorem begin_up : s.begin.up = s.up := rfl
@[simp] theorem begin_au : s.begin.au = s.au := rfl
@[simp] theorem begin_requesters : s.begin.requesters = s.requesters := rfl
@[simp] theorem begin_hold : s.begin.hold = s.hold := rfl
@[simp] theorem begin_ac : s.begin.ac = s.ac := rfl
@[simp] theorem begin_slu : s.begin.slu = s.slu := rfl
@[simp] theorem begin_wlu : s.begin.wlu = s.wlu := rfl
@[simp] theorem begin_dp : s.begin.dp = s.dp := rfl
@[simp] theorem begin_cp : s.begin.cp = s.cp := rfl
@[simp] theorem begin_outputs : s.begin.outputs = [] := rfl
@[simp] theorem begin_freeDraws : s.begin.freeDraws = s.freeDraws := rfl
@[simp] theorem begin_pending : s.begin.pending = s.pending := rfl

end Sys2Proof.Machine.State
end

