-- ==== Sys2Proof/Laws/Acceptance.lean ====
section
/-! SUPPORT. Laws/Acceptance.lean: what the upstream port does with a request that is alone at it. -/

namespace Sys2Proof.Machine

/-- A search that finds nothing but one value, and that somewhere, finds it. -/
theorem findSome_eq_of_only {α β} (f : α → Option β) (x : β) (l : List α) (h : ∀ p ∈ l, f p = none ∨ f p = some x) (h2 : ∃ p ∈ l, f p = some x) : l.findSome? f = some x := by
  induction l with
  | nil => simp at h2
  | cons a l ih =>
    rw [List.findSome?_cons]
    rcases h a (by simp) with h3 | h3
    · simp only [h3]
      apply ih (fun p hp => h p (by simp [hp]))
      obtain ⟨p, hp, hx⟩ := h2
      simp at hp
      rcases hp with rfl | hp
      · rw [h3] at hx; cases hx
      · exact ⟨p, hp, hx⟩
    · simp only [h3]

/-- Reading a vector after a write. -/
theorem getElem_set_fin {α} {n} (v : Vector α n) (i : Fin n) (x : α) (j : Fin n) : (v.set i x)[j] = if j = i then x else v[j] := by
  simp only [Fin.getElem_fin, Vector.getElem_set]
  by_cases h : j = i
  · simp [h]
  · have : (i:Nat) ≠ j := fun e => h (Fin.ext e.symm)
    simp [h, this]

/-- Every lane of every requester is considered (R52). -/
theorem mem_order (u : UpPort) (l : Lane) (q : ReqNo) : (l, q) ∈ u.order := by
  unfold UpPort.order
  rw [List.mem_flatMap]
  refine ⟨q - u.next, ?_, ?_⟩
  · generalize q - u.next = x; revert x; decide
  · have : u.next + (q - u.next) = q := by apply Fin.ext; simp [Fin.add_def, Fin.sub_def]; omega
    rw [this]; cases l <;> simp

/-- A place that is filled and emptied again is as it was. -/
theorem set_set_self {α n} (v : Vector α n) (i : Fin n) (x : α) (h : v[i] = x) (y : α) : (v.set i y).set i x = v := by
  rw [Vector.set_set]; subst h; simp

/-- The lane places once a request has been presented alone (R49). -/
theorem place_present (s : State) (r : Request) (hn : s.nothingWaits) (l : Lane) (q : ReqNo) :
   (present s.begin r).up.place l q = if q = r.requester ∧ l = (if r.isControl s.straps then Lane.control else .memory) then some r else none := by
  have hc := fun q => (hn q).1
  have hm := fun q => (hn q).2
  have e1 : s.begin.up = s.up := rfl
  have e2 : s.begin.straps = s.straps := rfl
  unfold present
  rw [e1, e2]
  split
  · have : (s.up.control[r.requester]).isNone := by rw [hc]; rfl
    rw [if_pos this]
    cases l
    · simp only [UpPort.place, State.modUp, e1, getElem_set_fin]
      by_cases h : q = r.requester <;> simp [h]
      · exact hc q
    · simp [UpPort.place, State.modUp]; exact hm q
  · have : (s.up.memory[r.requester]).isNone := by rw [hm]; rfl
    rw [if_pos this]
    cases l
    · simp [UpPort.place, State.modUp]; exact hc q
    · simp only [UpPort.place, State.modUp, e1, getElem_set_fin]
      by_cases h : q = r.requester <;> simp [h]
      · exact hm q

/-- Presenting a request does not touch the lanes' conditions. -/
theorem laneOf_present (s : State) (r x : Request) : (present s.begin r).laneOf x = s.laneOf x := by
  unfold present; split <;> split <;> rfl

/-- The only request presented is accepted, its lane being open (R52). -/
theorem nextAccepted_alone (s : State) (r : Request) (hn : s.nothingWaits) (ho : s.laneOf r = .isOpen) :
   (present s.begin r).nextAccepted = some ((if r.isControl s.straps then Lane.control else .memory), r.requester, r) := by
  unfold State.nextAccepted
  apply findSome_eq_of_only
  · rintro ⟨l, q⟩ _
    unfold State.acceptable
    rw [place_present s r hn]
    by_cases h : q = r.requester ∧ l = (if r.isControl s.straps then Lane.control else .memory)
    · rw [if_pos h]; right; simp only [laneOf_present, ho, h.1, h.2]; rfl
    · rw [if_neg h]; left; rfl
  · refine ⟨(if r.isControl s.straps then Lane.control else .memory, r.requester), mem_order _ _ _, ?_⟩
    unfold State.acceptable
    rw [place_present s r hn]
    simp only [and_self, if_true, laneOf_present, ho]

/-- The only request presented is not accepted while its lane is stalled (R49). -/
theorem nextAccepted_stalled (s : State) (r : Request) (hn : s.nothingWaits) (ho : s.laneOf r ≠ .isOpen) :
   (present s.begin r).nextAccepted = none := by
  unfold State.nextAccepted
  rw [List.findSome?_eq_none_iff]
  rintro ⟨l, q⟩ _
  unfold State.acceptable
  rw [place_present s r hn]
  by_cases h : q = r.requester ∧ l = (if r.isControl s.straps then Lane.control else .memory)
  · rw [if_pos h]; simp only [laneOf_present, ho, if_false]
  · rw [if_neg h]

/-- Its place is empty again, and the rotation goes on. -/
theorem takePlace_alone (s : State) (r : Request) (hn : s.nothingWaits) :
   takePlace (if r.isControl s.straps then Lane.control else .memory) r.requester (present s.begin r) = s.accepted r.requester := by
  have hc := (hn r.requester).1
  have hm := (hn r.requester).2
  have e1 : s.begin.up = s.up := rfl
  have e2 : s.begin.straps = s.straps := rfl
  unfold present
  rw [e1, e2]
  by_cases h : r.isControl s.straps = true
  · have : (s.up.control[r.requester]).isNone := by rw [hc]; rfl
    simp only [h, if_true, this, takePlace, State.modUp, e1, set_set_self _ _ _ hc]
    rfl
  · have : (s.up.memory[r.requester]).isNone := by rw [hm]; rfl
    simp only [h, this, takePlace, State.modUp, e1]
    simp [State.accepted, State.begin, State.setOutputs, set_set_self _ _ _ hm]

/-- A request alone at the port whose lane is open is the one admitted. -/
theorem acceptOne_alone (s : State) (r : Request) (hn : s.nothingWaits) (ho : s.laneOf r = .isOpen) :
   acceptOne (present s.begin r) = admitRequest r (s.accepted r.requester) := by
  unfold acceptOne
  rw [nextAccepted_alone s r hn ho]
  simp only [takePlace_alone s r hn]

/-- A request alone at the port whose lane is stalled waits in its place. -/
theorem acceptOne_stalled (s : State) (r : Request) (hn : s.nothingWaits) (ho : s.laneOf r ≠ .isOpen) :
   acceptOne (present s.begin r) = present s.begin r := by
  unfold acceptOne
  rw [nextAccepted_stalled s r hn ho]

/-- A request that passes the protocol checks has the reference of no tracking entry (R54). -/
theorem protocolOk_fresh {s : State} {r : Request} (h : s.protocolOk r = true) : ∀ e ∈ s.au.tracking, e.ref ≠ r.ref := by
  unfold State.protocolOk State.track? at h
  simp at h
  exact h.2

/-- Rewriting the entry of a reference that no entry has changes nothing. -/
theorem map_of_no_ref (l : List TrackEntry) (r : TrackRef) (f : TrackEntry → TrackEntry) (h : ∀ e ∈ l, e.ref ≠ r) : l.map (fun e => if e.ref = r then f e else e) = l := by
  rw [List.map_congr_left (g := id)]
  · simp
  · intro e he; simp [h e he]

end Sys2Proof.Machine
end

