-- ==== Sys2Proof/Laws/Conditions.lean ====
section
/-! SUPPORT. Laws/Conditions.lean: when the tests of the supply lines, the wake work and the control block hold. -/

namespace Sys2Proof.Machine

theorem mem_allLines (n : LineNo) : n ∈ allLines := by revert n; decide
theorem mem_allGroups (g : GroupNo) : g ∈ allGroups := by revert g; decide

/-- Every line of the group's line set is ON (R17). -/
theorem linesReady_iff (s : State) (g : GroupNo) :
    s.linesReady g = true ↔
      ∀ n : LineNo, s.slu.lines[n].deps.getLsbD g.val = true → s.slu.lines[n].state = .on := by
  simp only [State.linesReady, State.lineNeeds, List.all_eq_true]
  constructor
  · intro h n hn
    have := h n (mem_allLines n)
    rw [hn] at this
    simpa using this
  · intro h n _
    cases hb : s.slu.lines[n].deps.getLsbD g.val <;> simp
    exact h n hb

theorem Threshold.met_iff (t : Threshold) (v : Option Sleep) :
    t.met v = true ↔ (v = some .off ∨ (v = some .retain ∧ t = .retain)) := by
  rcases v with _ | v
  · simp [Threshold.met]
  · cases v <;> cases t <;> simp [Threshold.met]

/-- The off condition (R117). -/
theorem offCondition_iff (s : State) (l : SupplyLine) :
    s.offCondition l = true ↔
      l.forced = false ∧ l.deps ≠ 0 ∧ ∀ g : GroupNo, l.deps.getLsbD g.val = true →
        (s.slu.view[g] = some .off ∨ (s.slu.view[g] = some .retain ∧ l.threshold = .retain)) := by
  simp only [State.offCondition, Bool.and_eq_true, List.all_eq_true]
  constructor
  · rintro ⟨⟨a, b⟩, c⟩
    refine ⟨by simpa using a, by simpa using b, fun g hg => (Threshold.met_iff _ _).1 ?_⟩
    have := c g (mem_allGroups g)
    rw [hg] at this
    simpa using this
  · rintro ⟨a, b, c⟩
    refine ⟨⟨by simpa using a, by simpa using b⟩, fun g _ => ?_⟩
    cases hb : l.deps.getLsbD g.val <;> simp
    exact (Threshold.met_iff _ _).2 (c g hb)

/-- Wake work among the held entries (R13; log entry 21). -/
theorem hasWakeEntry_iff (s : State) (g : GroupNo) :
    s.hasWakeEntry g = true ↔ ∃ e ∈ s.hold.entries, e.group = g ∧ e.state = .waiting ∧ e.reason = .wake := by
  simp [State.hasWakeEntry, and_assoc]

/-- The software-owned bytes of the control block (R56, R145). -/
theorem softwareOwned_iff (o : Nat) :
    softwareOwned o = true ↔ o < 2 ∨ (4 ≤ o ∧ o < 6) ∨ (8 ≤ o ∧ o < 16) ∨ (0x400 ≤ o ∧ o < 0xC00) := by
  simp [softwareOwned]
  omega

end Sys2Proof.Machine
end

