-- ==== Sys2Proof/Laws/Frames.lean ====
section
/-! SUPPORT. Laws/Frames.lean: what the shared operations leave unchanged: a relation for each family of operations, one
lemma for each operation that says which relation it keeps, and what follows for the fields. -/

namespace Sys2Proof.Machine

/-- The policy of a group (R169): what no event but a reset and SET_GROUP_POLICY changes. -/
def GroupRec.policy (r : GroupRec) : Depth × Nat × Nat × Nat := (r.deepest, r.tNap, r.tRetain, r.tOff)

/-- The programmable fields of a requester record (R69). -/
def Requester.config (r : Requester) : Bool × Mode × Nat × Bool := (r.enabled, r.mode, r.quota, r.control)

/-- The states agree in everything but the command processor and the free draws. -/
structure CpOnly (s t : State) : Prop where
  straps : t.straps = s.straps
  partTime : t.partTime = s.partTime
  timeouts : t.timeouts = s.timeouts
  groups : t.groups = s.groups
  regions : t.regions = s.regions
  scrub : t.scrub = s.scrub
  up : t.up = s.up
  au : t.au = s.au
  requesters : t.requesters = s.requesters
  hold : t.hold = s.hold
  ac : t.ac = s.ac
  slu : t.slu = s.slu
  wlu : t.wlu = s.wlu
  dp : t.dp = s.dp
  outputs : t.outputs = s.outputs
  pending : t.pending = s.pending

theorem CpOnly.refl (s : State) : CpOnly s s := by constructor <;> simp

theorem CpOnly.trans {s t u : State} (h : CpOnly s t) (k : CpOnly t u) : CpOnly s u := by
  constructor <;> first
    | exact k.straps.trans h.straps
    | exact k.partTime.trans h.partTime
    | exact k.timeouts.trans h.timeouts
    | exact k.groups.trans h.groups
    | exact k.regions.trans h.regions
    | exact k.scrub.trans h.scrub
    | exact k.up.trans h.up
    | exact k.au.trans h.au
    | exact k.requesters.trans h.requesters
    | exact k.hold.trans h.hold
    | exact k.ac.trans h.ac
    | exact k.slu.trans h.slu
    | exact k.wlu.trans h.wlu
    | exact k.dp.trans h.dp
    | exact k.outputs.trans h.outputs
    | exact k.pending.trans h.pending

/-- They agree in everything but the command processor, the free draws and the supply line unit. -/
structure LineOnly (s t : State) : Prop where
  straps : t.straps = s.straps
  partTime : t.partTime = s.partTime
  timeouts : t.timeouts = s.timeouts
  groups : t.groups = s.groups
  regions : t.regions = s.regions
  scrub : t.scrub = s.scrub
  up : t.up = s.up
  au : t.au = s.au
  requesters : t.requesters = s.requesters
  hold : t.hold = s.hold
  ac : t.ac = s.ac
  wlu : t.wlu = s.wlu
  dp : t.dp = s.dp
  outputs : t.outputs = s.outputs
  pending : t.pending = s.pending

theorem LineOnly.refl (s : State) : LineOnly s s := by constructor <;> simp

theorem LineOnly.trans {s t u : State} (h : LineOnly s t) (k : LineOnly t u) : LineOnly s u := by
  constructor <;> first
    | exact k.straps.trans h.straps
    | exact k.partTime.trans h.partTime
    | exact k.timeouts.trans h.timeouts
    | exact k.groups.trans h.groups
    | exact k.regions.trans h.regions
    | exact k.scrub.trans h.scrub
    | exact k.up.trans h.up
    | exact k.au.trans h.au
    | exact k.requesters.trans h.requesters
    | exact k.hold.trans h.hold
    | exact k.ac.trans h.ac
    | exact k.wlu.trans h.wlu
    | exact k.dp.trans h.dp
    | exact k.outputs.trans h.outputs
    | exact k.pending.trans h.pending

/-- They agree in everything but the command processor, the free draws, the supply line unit, the group records apart from
their policies, and the outputs. -/
structure PowerOnly (s t : State) : Prop where
  straps : t.straps = s.straps
  partTime : t.partTime = s.partTime
  timeouts : t.timeouts = s.timeouts
  regions : t.regions = s.regions
  scrub : t.scrub = s.scrub
  up : t.up = s.up
  au : t.au = s.au
  requesters : t.requesters = s.requesters
  hold : t.hold = s.hold
  ac : t.ac = s.ac
  wlu : t.wlu = s.wlu
  dp : t.dp = s.dp
  pending : t.pending = s.pending
  policy : ∀ g : GroupNo, t.groups[g].policy = s.groups[g].policy

theorem PowerOnly.refl (s : State) : PowerOnly s s := by constructor <;> simp

theorem PowerOnly.trans {s t u : State} (h : PowerOnly s t) (k : PowerOnly t u) : PowerOnly s u := by
  constructor <;> first
    | exact k.straps.trans h.straps
    | exact k.partTime.trans h.partTime
    | exact k.timeouts.trans h.timeouts
    | exact k.regions.trans h.regions
    | exact k.scrub.trans h.scrub
    | exact k.up.trans h.up
    | exact k.au.trans h.au
    | exact k.requesters.trans h.requesters
    | exact k.hold.trans h.hold
    | exact k.ac.trans h.ac
    | exact k.wlu.trans h.wlu
    | exact k.dp.trans h.dp
    | exact k.pending.trans h.pending
    | exact k.policy.trans h.policy
    | exact fun x => (k.policy x).trans (h.policy x)

/-- They agree in everything that no claim of R24 and R76 to R81 can touch. -/
structure ClaimOnly (s t : State) : Prop where
  straps : t.straps = s.straps
  partTime : t.partTime = s.partTime
  timeouts : t.timeouts = s.timeouts
  regions : t.regions = s.regions
  scrub : t.scrub = s.scrub
  up : t.up = s.up
  wlu : t.wlu = s.wlu
  pending : t.pending = s.pending
  policy : ∀ g : GroupNo, t.groups[g].policy = s.groups[g].policy
  programme : t.ac.programme = s.ac.programme
  config : ∀ q : ReqNo, t.requesters[q].config = s.requesters[q].config
  slots : t.dp.slots = s.dp.slots
  generation : t.dp.generation = s.dp.generation
  takeReady : t.dp.takeReady = s.dp.takeReady
  turn : t.dp.turn = s.dp.turn
  writePlace : t.dp.writePlace = s.dp.writePlace
  fetchPlace : t.dp.fetchPlace = s.dp.fetchPlace
  scrubPlace : t.dp.scrubPlace = s.dp.scrubPlace
  nextSeq : t.au.nextSeq = s.au.nextSeq
  protocolPlace : t.au.protocolPlace = s.au.protocolPlace
  limits : (t.hold.high, t.hold.low) = (s.hold.high, s.hold.low)

theorem ClaimOnly.refl (s : State) : ClaimOnly s s := by constructor <;> simp

theorem ClaimOnly.trans {s t u : State} (h : ClaimOnly s t) (k : ClaimOnly t u) : ClaimOnly s u := by
  constructor <;> first
    | exact k.straps.trans h.straps
    | exact k.partTime.trans h.partTime
    | exact k.timeouts.trans h.timeouts
    | exact k.regions.trans h.regions
    | exact k.scrub.trans h.scrub
    | exact k.up.trans h.up
    | exact k.wlu.trans h.wlu
    | exact k.pending.trans h.pending
    | exact k.policy.trans h.policy
    | exact k.programme.trans h.programme
    | exact k.config.trans h.config
    | exact k.slots.trans h.slots
    | exact k.generation.trans h.generation
    | exact k.takeReady.trans h.takeReady
    | exact k.turn.trans h.turn
    | exact k.writePlace.trans h.writePlace
    | exact k.fetchPlace.trans h.fetchPlace
    | exact k.scrubPlace.trans h.scrubPlace
    | exact k.nextSeq.trans h.nextSeq
    | exact k.protocolPlace.trans h.protocolPlace
    | exact k.limits.trans h.limits
    | exact fun x => (k.policy x).trans (h.policy x)
    | exact fun x => (k.programme x).trans (h.programme x)
    | exact fun x => (k.config x).trans (h.config x)

theorem CpOnly.toLineOnly {s t : State} (h : CpOnly s t) : LineOnly s t := by
  constructor <;> first
    | exact h.straps
    | exact h.partTime
    | exact h.timeouts
    | exact h.groups
    | exact h.regions
    | exact h.scrub
    | exact h.up
    | exact h.au
    | exact h.requesters
    | exact h.hold
    | exact h.ac
    | exact h.slu
    | exact h.wlu
    | exact h.dp
    | exact h.outputs
    | exact h.pending

theorem LineOnly.toPowerOnly {s t : State} (h : LineOnly s t) : PowerOnly s t := by
  constructor <;> first
    | exact h.straps
    | exact h.partTime
    | exact h.timeouts
    | exact h.groups
    | exact h.regions
    | exact h.scrub
    | exact h.up
    | exact h.au
    | exact h.requesters
    | exact h.hold
    | exact h.ac
    | exact h.wlu
    | exact h.dp
    | exact h.outputs
    | exact h.pending
    | exact fun g => by rw [h.groups]

theorem PowerOnly.toClaimOnly {s t : State} (h : PowerOnly s t) : ClaimOnly s t := by
  constructor <;> first
    | exact h.straps
    | exact h.partTime
    | exact h.timeouts
    | exact h.regions
    | exact h.scrub
    | exact h.up
    | exact h.au
    | exact h.requesters
    | exact h.hold
    | exact h.ac
    | exact h.wlu
    | exact h.dp
    | exact h.pending
    | exact h.policy
    | exact fun q => by rw [h.requesters]
    | rw [h.ac]
    | rw [h.dp]
    | rw [h.au]
    | rw [h.hold]

/-! ## The command processor (R150 to R152, R186 to R188) -/

theorem modCp_only (f : CmdProc → CmdProc) (s : State) : CpOnly s (s.modCp f) := by constructor <;> rfl

theorem setFreeDraws_only (n : Nat) (s : State) : CpOnly s (s.setFreeDraws n) := by constructor <;> rfl

theorem appendWrite_only (k : WriteKind) (tx : Option Tx) (s : State) : CpOnly s (appendWrite k tx s) := modCp_only _ s

theorem appendBeat_only (k : WriteKind) (o : Nat) (bs : List Byte) (s : State) : CpOnly s (appendBeat k o bs s) :=
  (appendWrite_only _ _ s).trans (setFreeDraws_only _ _)

theorem mirrorChange_only (s : State) : CpOnly s (mirrorChange s) := by
  unfold mirrorChange
  split
  · exact modCp_only _ s
  · split
    · exact .refl s
    · exact appendWrite_only _ _ s

theorem setCpState_only (st : CpState) (s : State) : CpOnly s (setCpState st s) := by
  unfold setCpState
  split
  · exact .refl s
  · exact (modCp_only _ s).trans (mirrorChange_only _)

theorem assignReport_only (r : Report) (c : Bool) (s : State) : CpOnly s (assignReport r c s) :=
  ((modCp_only _ s).trans (appendWrite_only _ _ _)).trans (appendBeat_only _ _ _ _)

theorem overflowTest_only (s : State) : CpOnly s (overflowTest s) := by
  unfold overflowTest
  split
  · exact (assignReport_only _ _ s).trans (modCp_only _ _)
  · exact .refl s

theorem loseNotice_only (n : Notice) (s : State) : CpOnly s (loseNotice n s) := modCp_only _ s

theorem raiseNotice_only (n : Notice) (s : State) : CpOnly s (raiseNotice n s) := by
  unfold raiseNotice
  split
  · exact loseNotice_only n s
  · dsimp only
    split
    · exact (overflowTest_only s).trans (assignReport_only _ _ _)
    · exact (overflowTest_only s).trans (loseNotice_only _ _)

theorem postCompletion_only (r : CompletionReport) (s : State) : CpOnly s (postCompletion r s) := by
  unfold postCompletion
  split
  · exact (assignReport_only _ _ s).trans (setCpState_only _ _)
  · exact setCpState_only _ s

theorem endExecution_only (v : Verdict) : CpOnly v.state (endExecution v) := by
  unfold endExecution
  dsimp only
  split
  · split
    · exact (modCp_only _ _).trans (postCompletion_only _ _)
    · exact .refl _
  · exact .refl _

theorem beginExecution_only (h : InHand) (tag : BitVec 16) (body : CmdBody) (s : State) :
    CpOnly s (beginExecution h tag body s) := (modCp_only _ s).trans (setCpState_only _ _)

theorem consumerChanged_only (s : State) : CpOnly s (consumerChanged s) := by
  unfold consumerChanged
  split
  · exact (postCompletion_only _ s).trans (overflowTest_only _)
  · exact overflowTest_only s

theorem appendRewrite_only (s : State) : CpOnly s (appendRewrite s) := (modCp_only _ s).trans (setFreeDraws_only _ _)

/-! ## Records with a mirror (R4, R82, R124) -/

/-- What writing a group record does: the record, and at most a mirrored change. -/
theorem putGroup_only (g : GroupNo) (r : GroupRec) (s : State) : CpOnly (s.setGroup g r) (putGroup g r s) := by
  unfold putGroup
  split
  · exact .refl _
  · exact mirrorChange_only _

theorem putLine_only (n : LineNo) (l : SupplyLine) (s : State) : CpOnly (s.setLine n l) (putLine n l s) := by
  unfold putLine
  split
  · exact .refl _
  · exact mirrorChange_only _

theorem setBackpressure_only (b : Bool) (s : State) :
    CpOnly (s.modHold fun h => { h with backpressure := b }) (setBackpressure b s) := mirrorChange_only _

theorem setLine_only (n : LineNo) (l : SupplyLine) (s : State) : LineOnly s (s.setLine n l) := by
  constructor <;> rfl

theorem modSlu_only (f : SupplyUnit → SupplyUnit) (s : State) : LineOnly s (s.modSlu f) := by constructor <;> rfl

theorem putLine_lineOnly (n : LineNo) (l : SupplyLine) (s : State) : LineOnly s (putLine n l s) :=
  (setLine_only n l s).trans (putLine_only n l s).toLineOnly

/-! ## The supply line unit (R116, R117, R120) -/

theorem evaluateLine_only (n : LineNo) (s : State) : LineOnly s (evaluateLine n s) := by
  unfold evaluateLine
  dsimp only
  split
  · exact (putLine_lineOnly _ _ s).trans (raiseNotice_only _ _).toLineOnly
  · exact (putLine_lineOnly _ _ s).trans (raiseNotice_only _ _).toLineOnly
  · exact putLine_lineOnly _ _ s
  · exact .refl s

/-- A fold keeps a relation that each of its steps keeps. -/
theorem foldl_keeps {α : Type} {R : State → State → Prop} (hr : ∀ s, R s s)
    (ht : ∀ {s t u}, R s t → R t u → R s u) (f : State → α → State) (hf : ∀ s a, R s (f s a)) (l : List α) (s : State) :
    R s (l.foldl f s) := by
  induction l generalizing s with
  | nil => exact hr s
  | cons a l ih => exact ht (hf s a) (ih _)

theorem reportSleep_only (g : GroupNo) (v : Option Sleep) (s : State) : LineOnly s (reportSleep g v s) := by
  unfold reportSleep
  refine (modSlu_only _ s).trans (foldl_keeps .refl .trans _ (fun s n => ?_) _ _)
  split
  · exact evaluateLine_only n s
  · exact .refl s

theorem setWaiting_only (g : GroupNo) (b : Bool) (s : State) : LineOnly s (setWaiting g b s) := modSlu_only _ s

/-! ## The group controllers' requests (R12, R16, R17) -/

/-- Writing a record that keeps the group's policy. -/
theorem setGroup_power (g : GroupNo) (r : GroupRec) (s : State) (h : r.policy = s.groups[g].policy) :
    PowerOnly s (s.setGroup g r) := by
  constructor <;> first
    | rfl
    | (intro k
       by_cases hk : g = k
       · subst hk; simpa using h
       · have : g.val ≠ k.val := fun e => hk (Fin.ext e)
         simp [Vector.getElem_set_ne _ _ this])

theorem putGroup_power (g : GroupNo) (r : GroupRec) (s : State) (h : r.policy = s.groups[g].policy) :
    PowerOnly s (putGroup g r s) :=
  (setGroup_power g r s h).trans (putGroup_only g r s).toLineOnly.toPowerOnly

theorem emit_power (o : Output) (s : State) : PowerOnly s (s.emit o) := by constructor <;> intros <;> rfl

theorem sendExit_only (g : GroupNo) (s : State) : PowerOnly s (sendExit g s) :=
  (putGroup_power g _ s (by rfl)).trans (emit_power _ _)

theorem startLinesWait_only (g : GroupNo) (s : State) : PowerOnly s (startLinesWait g s) := by
  unfold startLinesWait
  split
  · exact sendExit_only g s
  · exact (setWaiting_only g true s).toPowerOnly

theorem wakeStart_only (g : GroupNo) (cold : Bool) (s : State) : PowerOnly s (wakeStart g cold s) :=
  ((putGroup_power g _ s (by rfl)).trans (reportSleep_only g none _).toPowerOnly).trans (startLinesWait_only g _)

theorem examineWaiting_only (s : State) : PowerOnly s (examineWaiting s) := by
  refine foldl_keeps .refl .trans _ (fun s g => ?_) _ _
  split
  · exact (setWaiting_only g false s).toPowerOnly.trans (sendExit_only g _)
  · exact .refl s

theorem sendEnter_only (g : GroupNo) (d : Sleep) (s : State) : PowerOnly s (sendEnter g d s) := by
  unfold sendEnter
  dsimp only
  split
  · exact ((putGroup_power g _ s (by rfl)).trans (emit_power _ _)).trans (reportSleep_only g none _).toPowerOnly
  · exact (putGroup_power g _ s (by rfl)).trans (emit_power _ _)

theorem settleEnd_only (n : LineNo) (s : State) : PowerOnly s (settleEnd n s) :=
  ((putLine_lineOnly n _ s).trans (raiseNotice_only _ _).toLineOnly).toPowerOnly.trans (examineWaiting_only _)

theorem clearCause_only (g : GroupNo) (s : State) : PowerOnly s (clearCause g s) := setGroup_power g _ s (by rfl)

theorem startDrain_only (g : GroupNo) (d : Sleep) (f : Bool) (c : Option (BitVec 16)) (s : State) :
    PowerOnly s (startDrain g d f c s) := by
  unfold startDrain
  dsimp only
  split
  · exact (putGroup_power g _ s (by rfl)).trans (sendEnter_only g d _)
  · exact putGroup_power g _ s (by rfl)

theorem descentTest_only (g : GroupNo) (s : State) : PowerOnly s (descentTest g s) := by
  unfold descentTest
  dsimp only
  split
  · split
    · exact startDrain_only g _ _ _ s
    · exact .refl s
  · split
    · exact sendEnter_only g _ s
    · exact .refl s
  · exact .refl s

theorem lowerInFlight_only (g : GroupNo) (s : State) : PowerOnly s (lowerInFlight g s) := by
  unfold lowerInFlight
  dsimp only
  split
  · split
    · exact (setGroup_power g _ s (by rfl)).trans (sendEnter_only g _ _)
    · exact setGroup_power g _ s (by rfl)
  · exact setGroup_power g _ s (by rfl)

/-! ## The hold queue and the claims (R73, R76 to R81) -/

theorem modHold_claim (f : HoldQueue → HoldQueue) (s : State) (h : ((f s.hold).high, (f s.hold).low) = (s.hold.high, s.hold.low)) :
    ClaimOnly s (s.modHold f) := by constructor <;> first | exact h | (intros; rfl)

theorem modAu_claim (f : AdmissionUnit → AdmissionUnit) (s : State) (h : (f s.au).nextSeq = s.au.nextSeq)
    (k : (f s.au).protocolPlace = s.au.protocolPlace) : ClaimOnly s (s.modAu f) := by
  constructor <;> first | exact h | exact k | (intros; rfl)

theorem modCount_claim (c : ClassNo) (f : ClassCounters → ClassCounters) (s : State) : ClaimOnly s (s.modCount c f) := by
  constructor <;> intros <;> rfl

theorem modReq_claim (q : ReqNo) (f : Requester → Requester) (s : State)
    (h : (f s.requesters[q]).config = s.requesters[q].config) : ClaimOnly s (s.modReq q f) := by
  constructor <;> first
    | rfl
    | (intro k; rfl)
    | (intro k
       by_cases hk : q = k
       · subst hk; simpa using h
       · have : q.val ≠ k.val := fun e => hk (Fin.ext e)
         simp [Vector.getElem_set_ne _ _ this])

theorem setGroup_claim (g : GroupNo) (r : GroupRec) (s : State) (h : r.policy = s.groups[g].policy) :
    ClaimOnly s (s.setGroup g r) := (setGroup_power g r s h).toClaimOnly

theorem putGroup_claim (g : GroupNo) (r : GroupRec) (s : State) (h : r.policy = s.groups[g].policy) :
    ClaimOnly s (putGroup g r s) := (putGroup_power g r s h).toClaimOnly

theorem raiseNotice_claim (n : Notice) (s : State) : ClaimOnly s (raiseNotice n s) :=
  (raiseNotice_only n s).toLineOnly.toPowerOnly.toClaimOnly

theorem modForward_only (f : List TrackRef → List TrackRef) (s : State) :
    ClaimOnly s (s.modDp fun d => { d with forward := f d.forward }) := by constructor <;> intros <;> rfl

theorem modTrack_only (r : TrackRef) (f : TrackEntry → TrackEntry) (s : State) : ClaimOnly s (s.modTrack r f) :=
  modAu_claim _ s rfl rfl

theorem backpressureTest_only (s : State) : ClaimOnly s (backpressureTest s) := by
  have hb : ∀ b, ClaimOnly s (setBackpressure b s) := fun b =>
    (modHold_claim _ s rfl).trans (setBackpressure_only b s).toLineOnly.toPowerOnly.toClaimOnly
  unfold backpressureTest
  dsimp only
  split
  · exact (hb _).trans (raiseNotice_claim _ _)
  · split
    · exact (hb _).trans (raiseNotice_claim _ _)
    · exact .refl s

theorem modEntry_only (r : TrackRef) (f : HoldEntry → HoldEntry) (s : State) : ClaimOnly s (modEntry r f s) :=
  modHold_claim _ s rfl

theorem setReason_only (r : TrackRef) (k : HoldReason) (s : State) : ClaimOnly s (setReason r k s) := modEntry_only r _ s

theorem answerTrack_only (r : TrackRef) (st : Status) (d : Option (List Byte)) (s : State) :
    ClaimOnly s (answerTrack r st d s) := (modTrack_only r _ s).trans (modAu_claim _ _ rfl rfl)

theorem leave_only (e : HoldEntry) (s : State) : ClaimOnly s (leave e s) := by
  unfold leave
  dsimp only
  refine ClaimOnly.trans ?_ (backpressureTest_only _)
  exact ((modHold_claim _ s rfl).trans (modReq_claim _ _ _ (by rfl))).trans (setGroup_claim _ _ _ (by rfl))

theorem place_only (r : TrackRef) (g : GroupNo) (s : State) : ClaimOnly s (place r g s) := by
  unfold place
  exact ((modTrack_only r (fun e => { e with state := .queued }) s).trans (modForward_only (· ++ [r]) _)).trans
    (setGroup_claim _ _ _ (by rfl))

theorem answerHeld_only (e : HoldEntry) (st : Status) (s : State) : ClaimOnly s (answerHeld e st s).1 := by
  unfold answerHeld
  dsimp only
  have h := ((answerTrack_only e.ref st none s).trans (leave_only e _)).trans
    (modCount_claim e.cls (fun c => { c with refused := c.refused + 1 }) _)
  split
  · exact h.trans (modReq_claim _ _ _ (by rfl))
  · exact h

theorem cancelDrain_only (g : GroupNo) (s : State) : ClaimOnly s (cancelDrain g s).1 := putGroup_claim g _ s (by rfl)

theorem redecide_only (e : HoldEntry) (row1 : Bool) (s : State) : ClaimOnly s (redecide e row1 s).1 := by
  unfold redecide
  dsimp only
  split
  · exact setReason_only _ _ s
  · split
    · exact setReason_only _ _ s
    · split
      · exact answerHeld_only _ _ s
      · split
        · split
          · exact answerHeld_only _ _ s
          · exact modEntry_only _ _ s
        · split
          · exact setReason_only _ _ s
          · exact answerHeld_only _ _ s

theorem wakeRequest_only (g : GroupNo) (c : ClassNo) (s : State) : ClaimOnly s (wakeRequest g c s).1 := by
  unfold wakeRequest
  dsimp only
  split
  · exact .refl s
  · split
    · split
      · exact putGroup_claim g _ s (by rfl)
      · exact cancelDrain_only g s
    · exact putGroup_claim g _ s (by rfl)
    · dsimp only; exact (wakeStart_only g false s).toClaimOnly.trans (modCount_claim _ _ _)
    all_goals exact .refl s

theorem preWake_only (g : GroupNo) (s : State) : ClaimOnly s (preWake g s).1 := by
  unfold preWake
  dsimp only
  split
  · exact .refl s
  · split
    · exact putGroup_claim g _ s (by rfl)
    · split
      · exact putGroup_claim g _ s (by rfl)
      · exact cancelDrain_only g s
    · exact putGroup_claim g _ s (by rfl)
    · exact (wakeStart_only g false s).toClaimOnly
    all_goals exact .refl s

theorem examine_only (r : TrackRef) (s : State) : ClaimOnly s (examine r s).1 := by
  unfold examine
  split
  · split
    · exact redecide_only _ _ s
    · exact .refl s
  · exact .refl s

theorem moveReady_only (s : State) : ClaimOnly s (moveReady s).1 := by
  unfold moveReady
  split
  · split
    · dsimp only; exact ((leave_only _ s).trans (place_only _ _ _)).trans (modCount_claim _ _ _)
    · exact .refl s
  · exact .refl s

theorem doWork_only (w : Work) (s : State) : ClaimOnly s (doWork w s).1 := by
  unfold doWork
  split
  · exact wakeRequest_only _ _ s
  · exact preWake_only _ s
  · exact examine_only _ s
  · split
    · exact examine_only _ s
    · exact .refl s
  · exact moveReady_only s
  · split
    · exact answerHeld_only _ _ s
    · exact .refl s

/-- What every claim keeps, a run of claims keeps. -/
theorem runWork_keeps {P : State → Prop} (h : ∀ w s, P s → P (doWork w s).1) (n : Nat) (ws : List Work) (s : State)
    (hs : P s) : P (runWork n ws s) := by
  induction n generalizing ws s with
  | zero => cases ws <;> exact hs
  | succ n ih =>
    cases ws with
    | nil => exact hs
    | cons w ws => exact ih _ _ (h w s hs)

theorem claim_keeps {P : State → Prop} (h : ∀ w s, P s → P (doWork w s).1) (ws : List Work) (s : State)
    (hs : P s) : P (claim ws s) := runWork_keeps h _ ws s hs

theorem claim_only (ws : List Work) (s : State) : ClaimOnly s (claim ws s) :=
  claim_keeps (P := fun t => ClaimOnly s t) (fun w t ht => ht.trans (doWork_only w t)) ws s (.refl s)

theorem holdEntry_only (e : HoldEntry) (s : State) : ClaimOnly s (holdEntry e s).1 := by
  unfold holdEntry
  dsimp only
  have h := fun r hr => (((modHold_claim (fun h => { h with entries := h.entries ++ [e], peak := max h.peak (h.entries.length + 1) })
    s rfl).trans (modReq_claim e.requester (fun q => { q with held := q.held + 1 }) _ (by rfl))).trans
    (backpressureTest_only _)).trans (setGroup_claim e.group r _ hr)
  split
  · exact (h _ (by rfl)).trans (cancelDrain_only _ _)
  · exact h _ (by rfl)

/-! ## Group events (R20, R22) -/

theorem reachActive_only (g : GroupNo) (s : State) : ClaimOnly s (reachActive g s) :=
  (((putGroup_claim g _ s (by rfl)).trans (raiseNotice_claim _ _)).trans (clearCause_only g _).toClaimOnly).trans
    (claim_only _ _)

theorem fault_only (g : GroupNo) (why : FaultReason) (s : State) : ClaimOnly s (fault g why s) :=
  (((putGroup_claim g _ s (by rfl)).trans (raiseNotice_claim _ _)).trans (clearCause_only g _).toClaimOnly).trans
    (claim_only _ _)

theorem exitFail_only (g : GroupNo) (s : State) : ClaimOnly s (exitFail g s) := by
  unfold exitFail
  dsimp only
  split
  · exact fault_only g _ s
  · exact ((setGroup_claim g _ s (by rfl)).trans (sendExit_only g _).toClaimOnly).trans (raiseNotice_claim _ _)

theorem entryOk_only (g : GroupNo) (s : State) : ClaimOnly s (entryOk g s) := by
  unfold entryOk
  dsimp only
  split
  · exact .refl s
  · have h := fun d : Sleep => ((putGroup_claim g { s.groups[g] with
        state := .asleep, depth := d.toDepth, target := none, forced := false, timer := none
        counters := s.groups[g].counters.entered d } s (by rfl)).trans (raiseNotice_claim
          (.groupAsleep g d.toDepth s.groups[g].cause) _)).trans (clearCause_only g _).toClaimOnly
    split
    · exact (h _).trans (wakeStart_only g _ _).toClaimOnly
    · exact ((h _).trans (reportSleep_only g _ _).toPowerOnly.toClaimOnly).trans (descentTest_only g _).toClaimOnly

theorem entryRefused_only (g : GroupNo) (s : State) : ClaimOnly s (entryRefused g s) := by
  unfold entryRefused
  dsimp only
  have h := fun d : Depth => ((setGroup_claim g { s.groups[g] with
      timer := none, target := none, forced := false, idle := 0 } s (by rfl)).trans (raiseNotice_claim
        (.entryRefused g d s.groups[g].cause) _)).trans (clearCause_only g _).toClaimOnly
  split
  · exact ((h _).trans (putGroup_claim g _ _ (by rfl))).trans (claim_only _ _)
  · have k := fun d r hr => ((h d).trans (putGroup_claim g r _ hr)).trans
      (reportSleep_only g (viewOf s.groups[g].depth) _).toPowerOnly.toClaimOnly
    split
    · exact (k _ _ (by rfl)).trans (wakeStart_only g _ _).toClaimOnly
    · exact k _ _ (by rfl)

end Sys2Proof.Machine
end

