-- ==== Sys2Proof/Laws/Finish.lean ====
section
/-! SUPPORT. Laws/Finish.lean: what the end of an event (`finish`) leaves unchanged. -/

namespace Sys2Proof.Machine

/-- The states agree in everything that the end of an event cannot touch. -/
structure FinishOnly (s t : State) : Prop where
  straps : t.straps = s.straps
  partTime : t.partTime = s.partTime
  timeouts : t.timeouts = s.timeouts
  regions : t.regions = s.regions
  up : t.up = s.up
  wlu : t.wlu = s.wlu
  pending : t.pending = s.pending
  policy : ∀ g : GroupNo, t.groups[g].policy = s.groups[g].policy
  programme : t.ac.programme = s.ac.programme
  config : ∀ q : ReqNo, t.requesters[q].config = s.requesters[q].config
  generation : t.dp.generation = s.dp.generation
  nextSeq : t.au.nextSeq = s.au.nextSeq
  protocolPlace : t.au.protocolPlace = s.au.protocolPlace
  limits : (t.hold.high, t.hold.low) = (s.hold.high, s.hold.low)
  queue : t.scrub.queue = s.scrub.queue
  cursor : (t.scrub.cursorGroup, t.scrub.cursorRegion, t.scrub.cursorAddr)
    = (s.scrub.cursorGroup, s.scrub.cursorRegion, s.scrub.cursorAddr)

theorem FinishOnly.refl (s : State) : FinishOnly s s := by constructor <;> simp

theorem FinishOnly.trans {s t u : State} (h : FinishOnly s t) (k : FinishOnly t u) : FinishOnly s u := by
  constructor <;> first
    | exact k.straps.trans h.straps
    | exact k.partTime.trans h.partTime
    | exact k.timeouts.trans h.timeouts
    | exact k.regions.trans h.regions
    | exact k.up.trans h.up
    | exact k.wlu.trans h.wlu
    | exact k.pending.trans h.pending
    | exact k.policy.trans h.policy
    | exact k.programme.trans h.programme
    | exact k.config.trans h.config
    | exact k.generation.trans h.generation
    | exact k.nextSeq.trans h.nextSeq
    | exact k.protocolPlace.trans h.protocolPlace
    | exact k.limits.trans h.limits
    | exact k.queue.trans h.queue
    | exact k.cursor.trans h.cursor
    | exact fun x => (k.policy x).trans (h.policy x)
    | exact fun x => (k.programme x).trans (h.programme x)
    | exact fun x => (k.config x).trans (h.config x)

theorem ClaimOnly.toFinishOnly {s t : State} (h : ClaimOnly s t) : FinishOnly s t := by
  constructor <;> first
    | exact h.straps
    | exact h.partTime
    | exact h.timeouts
    | exact h.regions
    | exact h.up
    | exact h.wlu
    | exact h.pending
    | exact h.policy
    | exact h.programme
    | exact h.config
    | exact h.generation
    | exact h.nextSeq
    | exact h.protocolPlace
    | exact h.limits
    | rw [h.scrub]

theorem CpOnly.toFinishOnly {s t : State} (h : CpOnly s t) : FinishOnly s t :=
  h.toLineOnly.toPowerOnly.toClaimOnly.toFinishOnly

theorem modDp_finish (f : DownPort → DownPort) (s : State) (h : (f s.dp).generation = s.dp.generation) :
    FinishOnly s (s.modDp f) := by constructor <;> first | exact h | (intros; rfl)

theorem setWrite_only (s : State) : FinishOnly s (setWrite s) := by
  unfold setWrite
  split
  · exact modDp_finish _ s rfl
  · exact .refl s

theorem sendIn_only (k : SlotNo) (src : SlotSource) (tx : Tx) (t : Turn) (s : State) :
    FinishOnly s (sendIn k src tx t s) :=
  (modDp_finish _ s rfl).trans (emit_power _ _).toClaimOnly.toFinishOnly

theorem sendForward_only (k : SlotNo) (s : State) : FinishOnly s (sendForward k s) := by
  unfold sendForward
  split
  · exact .refl s
  · next r rs _ =>
    dsimp only
    split
    · exact (((modDp_finish (fun d => { d with forward := rs }) s rfl).trans
        (modTrack_only r (fun e => { e with state := .inFlight }) _).toFinishOnly).trans
        (sendIn_only _ _ _ _ _)).trans (claim_only _ _).toFinishOnly
    · exact modDp_finish _ s rfl

theorem offerFetch_only (s : State) : FinishOnly s (offerFetch s) := by
  unfold offerFetch
  split
  · split
    · exact modDp_finish _ s rfl
    · exact .refl s
  · exact .refl s

theorem fetchTest_only (s : State) : FinishOnly s (fetchTest s) := by
  unfold fetchTest
  split
  · split
    · exact ((modCp_only _ s).trans (setCpState_only _ _)).toFinishOnly.trans (offerFetch_only _)
    · exact .refl s
  · exact .refl s

theorem postingEnd_only (s : State) : FinishOnly s (postingEnd s) :=
  (((modCp_only _ s).trans (appendBeat_only _ _ _ _)).trans (setCpState_only _ _)).toFinishOnly.trans (fetchTest_only _)

theorem outstanding_only (s : State) : FinishOnly s (s.modScrub fun e => { e with engine := .outstanding }) := by
  constructor <;> intros <;> rfl

theorem sendInternal_only (k : SlotNo) (s : State) : FinishOnly s (sendInternal k s) := by
  have hw := fun src tx => (modDp_finish (fun d => { d with writePlace := none }) s rfl).trans
    (sendIn_only k src tx .forward _)
  have hf := fun src tx => (modDp_finish (fun d => { d with fetchPlace := none }) s rfl).trans
    (sendIn_only k src tx .forward _)
  have hs := fun src tx => (modDp_finish (fun d => { d with scrubPlace := none }) s rfl).trans
    (sendIn_only k src tx .forward _)
  unfold sendInternal
  split
  · dsimp only
    split
    · exact (hw _ _).trans (postingEnd_only _)
    · exact hw _ _
  · split
    · exact hf _ _
    · split
      · exact (hs _ _).trans (outstanding_only _)
      · exact .refl s

theorem arbitrate_only (s : State) : FinishOnly s (arbitrate s) := by
  unfold arbitrate
  split
  · exact .refl s
  · split
    · exact .refl s
    · split
      · split
        · exact (setWrite_only s).trans (sendInternal_only _ _)
        · exact sendInternal_only _ s
      · exact sendForward_only _ s

theorem finish_only (s : State) : FinishOnly s (finish s) := by
  have hw : ∀ (c : Bool) (t : State), FinishOnly t (if c then setWrite t else t) := by
    intro c t
    cases c
    · exact .refl t
    · exact setWrite_only t
  unfold finish
  exact ((hw _ s).trans (arbitrate_only _)).trans (hw _ _)

/-- While the take-ready flag is 0 the end of an event sets at most the CP write place (R133, R150). -/
theorem finish_notReady (s : State) (h : s.dp.takeReady = false) :
    ∃ p, finish s = s.modDp fun d => { d with writePlace := p } := by
  have hw : ∀ (c : Bool) (t : State), ∃ p, (if c then setWrite t else t) = t.modDp fun d => { d with writePlace := p } := by
    intro c t
    cases c
    · exact ⟨t.dp.writePlace, rfl⟩
    · cases h : t.cp.writeList.head? with
      | none => exact ⟨t.dp.writePlace, by simp [setWrite, h]; rfl⟩
      | some w => exact ⟨if w.isMirror then some t.mirrorTx else w.tx, by simp [setWrite, h]⟩
  have ha : ∀ t : State, t.dp.takeReady = false → arbitrate t = t := by
    intro t ht
    unfold arbitrate
    split
    · rfl
    · simp [ht]
  unfold finish
  dsimp only
  obtain ⟨p, hp⟩ := hw (s.wantsWrite && !s.cp.mirrorHead) s
  rw [hp, ha _ (by simpa using h)]
  obtain ⟨q, hq⟩ := hw ((s.modDp fun d => { d with writePlace := p }).wantsWrite)
    (s.modDp fun d => { d with writePlace := p })
  exact ⟨q, hq⟩

/-- With the flag 0 the end of an event leaves every block but the downstream port alone. -/
theorem finish_quiet (s : State) (h : s.dp.takeReady = false) :
    ∃ p, finish s = { s with dp := { s.dp with writePlace := p } } := finish_notReady s h

end Sys2Proof.Machine
end

