-- ==== Sys2Proof/Laws/ControlGroup.lean ====
section
/-! SUPPORT. Laws/ControlGroup.lean: which operations keep a group ACTIVE at D0. `Awake c` is kept by every claim for the
control group, and by an operation on another group for any group. -/

namespace Sys2Proof.Machine

/-- The group is ACTIVE at D0. -/
def State.awake (s : State) (c : GroupNo) : Prop := s.groups[c].state = .active ∧ s.groups[c].depth = .d0

theorem awake_groups {s t : State} {c : GroupNo} (h : t.groups = s.groups) (a : s.awake c) : t.awake c := by
  unfold State.awake at *; rw [h]; exact a

theorem awake_cp {s t : State} {c : GroupNo} (h : CpOnly s t) (a : s.awake c) : t.awake c := awake_groups h.groups a

theorem awake_line {s t : State} {c : GroupNo} (h : LineOnly s t) (a : s.awake c) : t.awake c := awake_groups h.groups a

theorem getElem_setGroup (g c : GroupNo) (r : GroupRec) (s : State) :
    (s.setGroup g r).groups[c] = if g = c then r else s.groups[c] := by
  by_cases h : g = c
  · subst h; simp
  · have : g.val ≠ c.val := fun e => h (Fin.ext e)
    simp [h, Vector.getElem_set_ne _ _ this]

/-- A record written to another group, or one that is itself ACTIVE at D0. -/
theorem awake_setGroup {g c : GroupNo} {r : GroupRec} {s : State}
    (h : g = c → r.state = .active ∧ r.depth = .d0) (a : s.awake c) : (s.setGroup g r).awake c := by
  unfold State.awake
  rw [getElem_setGroup]
  split
  · next e => exact h e
  · exact a

theorem awake_putGroup {g c : GroupNo} {r : GroupRec} {s : State}
    (h : g = c → r.state = .active ∧ r.depth = .d0) (a : s.awake c) : (putGroup g r s).awake c :=
  awake_cp (putGroup_only g r s) (awake_setGroup h a)

/-- A record with the same state and depth. -/
theorem awake_setGroup_same {g c : GroupNo} {r : GroupRec} {s : State} (h : r.state = s.groups[g].state)
    (k : r.depth = s.groups[g].depth) (a : s.awake c) : (s.setGroup g r).awake c :=
  awake_setGroup (fun e => by subst e; exact ⟨h.trans a.1, k.trans a.2⟩) a

theorem awake_sendExit {c : GroupNo} (g : GroupNo) {s : State} (a : s.awake c) : (sendExit g s).awake c :=
  awake_groups (by rfl) (awake_putGroup (g := g) (fun e => by subst e; exact a) a)

theorem awake_startLinesWait {c : GroupNo} (g : GroupNo) {s : State} (a : s.awake c) :
    (startLinesWait g s).awake c := by
  unfold startLinesWait
  split
  · exact awake_sendExit g a
  · exact awake_line (setWaiting_only g true s) a

theorem awake_wakeStart {g c : GroupNo} (hg : g ≠ c) (cold : Bool) {s : State} (a : s.awake c) :
    (wakeStart g cold s).awake c :=
  awake_startLinesWait g (awake_line (reportSleep_only _ _ _) (awake_putGroup (fun e => absurd e hg) a))

theorem awake_examineWaiting {c : GroupNo} {s : State} (a : s.awake c) : (examineWaiting s).awake c := by
  refine foldl_keeps (R := fun s t => s.awake c → t.awake c) (fun _ h => h) (fun h k x => k (h x)) _ ?_ _ s a
  intro s g a
  split
  · exact awake_sendExit g (awake_line (setWaiting_only g false s) a)
  · exact a

theorem awake_settleEnd {c : GroupNo} (n : LineNo) {s : State} (a : s.awake c) : (settleEnd n s).awake c :=
  awake_examineWaiting (awake_cp (raiseNotice_only _ _) (awake_line (putLine_lineOnly _ _ _) a))

theorem awake_sendEnter {g c : GroupNo} (hg : g ≠ c) (d : Sleep) {s : State} (a : s.awake c) :
    (sendEnter g d s).awake c := by
  have h : (putGroup g { s.groups[g] with state := .entering, target := some d, timer := some s.timeouts.entry }
      s).awake c := awake_putGroup (fun e => absurd e hg) a
  unfold sendEnter
  dsimp only
  split
  · exact awake_line (reportSleep_only _ _ _) (awake_groups (by rfl) h)
  · exact awake_groups (by rfl) h

theorem awake_startDrain {g c : GroupNo} (hg : g ≠ c) (d : Sleep) (f : Bool) (k : Option (BitVec 16)) {s : State}
    (a : s.awake c) : (startDrain g d f k s).awake c := by
  have h : (putGroup g { s.groups[g] with state := .draining, forced := f, target := some d, cause := k } s).awake c :=
    awake_putGroup (fun e => absurd e hg) a
  unfold startDrain
  dsimp only
  split
  · exact awake_sendEnter hg d h
  · exact h

/-- A group whose deepest allowed is D0 has the idle target D0 (R2, R6). -/
theorem idleTarget_none {s : State} {g : GroupNo} (h : s.groups[g].deepest = .d0) : s.idleTarget g = none := by
  have hq : ∀ d : Sleep, s.groups[g].qualifies d = false := by
    intro d
    unfold GroupRec.qualifies
    rw [h]
    cases d <;> simp [Sleep.toDepth, Depth.num]
  simp only [State.idleTarget, hq, Bool.false_and, Bool.false_eq_true, if_false]

theorem awake_descentTest {c : GroupNo} (g : GroupNo) {s : State} (d : s.groups[c].deepest = .d0) (a : s.awake c) :
    (descentTest g s).awake c := by
  by_cases hg : g = c
  · subst hg
    unfold descentTest
    simp only [idleTarget_none d]
    split <;> simp_all
  · unfold descentTest
    dsimp only
    split
    · split
      · exact awake_startDrain hg _ _ _ a
      · exact a
    · split
      · exact awake_sendEnter hg _ a
      · exact a
    · exact a

theorem awake_lowerInFlight {c : GroupNo} (g : GroupNo) {s : State} (a : s.awake c) : (lowerInFlight g s).awake c := by
  have h : (s.setGroup g { s.groups[g] with inFlight := s.groups[g].inFlight - 1 }).awake c :=
    awake_setGroup_same (by rfl) (by rfl) a
  by_cases hg : g = c
  · subst hg
    unfold lowerInFlight
    dsimp only
    split
    · next hs _ => rw [a.1] at hs; cases hs
    · exact h
  · unfold lowerInFlight
    dsimp only
    split
    · split
      · exact awake_sendEnter hg _ h
      · exact h
    · exact h

/-! ## The claims -/

theorem awake_backpressureTest {c : GroupNo} {s : State} (a : s.awake c) : (backpressureTest s).awake c := by
  have hb : ∀ b, (setBackpressure b s).awake c := fun b => awake_cp (setBackpressure_only b s) a
  unfold backpressureTest
  dsimp only
  split
  · exact awake_cp (raiseNotice_only _ _) (hb _)
  · split
    · exact awake_cp (raiseNotice_only _ _) (hb _)
    · exact a

theorem awake_leave {c : GroupNo} (e : HoldEntry) {s : State} (a : s.awake c) : (leave e s).awake c := by
  unfold leave
  exact awake_backpressureTest (awake_setGroup_same (by rfl) (by rfl) (awake_groups (by rfl) a))

theorem awake_place {c : GroupNo} (r : TrackRef) (g : GroupNo) {s : State} (a : s.awake c) : (place r g s).awake c := by
  unfold place
  exact awake_setGroup_same (by rfl) (by rfl) (awake_groups (by rfl) a)

theorem awake_answerHeld {c : GroupNo} (e : HoldEntry) (st : Status) {s : State} (a : s.awake c) :
    (answerHeld e st s).1.awake c := by
  have h : (leave e (answerTrack e.ref st none s)).awake c := awake_leave e (awake_groups (by rfl) a)
  unfold answerHeld
  dsimp only
  split <;> exact h

theorem awake_cancelDrain {c : GroupNo} (g : GroupNo) {s : State} (hd : s.groups[g].state = .draining)
    (a : s.awake c) : (cancelDrain g s).1.awake c :=
  awake_putGroup (fun e => by subst e; rw [a.1] at hd; cases hd) a

theorem awake_redecide {c : GroupNo} (e : HoldEntry) (row1 : Bool) {s : State} (a : s.awake c) :
    (redecide e row1 s).1.awake c := by
  unfold redecide
  dsimp only
  split
  · exact a
  · split
    · exact a
    · split
      · exact awake_answerHeld e _ a
      · split
        · split
          · exact awake_answerHeld e _ a
          · exact a
        · split
          · exact a
          · exact awake_answerHeld e _ a

theorem awake_wakeRequest {c : GroupNo} (g : GroupNo) (k : ClassNo) {s : State} (hc : s.controlGroup = c)
    (a : s.awake c) : (wakeRequest g k s).1.awake c := by
  unfold wakeRequest
  dsimp only
  split
  · exact a
  · next hn =>
    have hg : g ≠ c := fun e => hn (e.trans hc.symm)
    split
    · next hs =>
      split
      · exact awake_putGroup (fun e => absurd e hg) a
      · exact awake_cancelDrain g hs a
    · exact awake_putGroup (fun e => absurd e hg) a
    · exact awake_wakeStart hg false a
    all_goals exact a

theorem awake_preWake {c : GroupNo} (g : GroupNo) {s : State} (hc : s.controlGroup = c) (a : s.awake c) :
    (preWake g s).1.awake c := by
  unfold preWake
  dsimp only
  split
  · exact a
  · next hn =>
    have hg : g ≠ c := fun e => hn (e.trans hc.symm)
    split
    · exact awake_putGroup (fun e => absurd e hg) a
    · next hs =>
      split
      · exact awake_putGroup (fun e => absurd e hg) a
      · exact awake_cancelDrain g hs a
    · exact awake_putGroup (fun e => absurd e hg) a
    · exact awake_wakeStart hg false a
    all_goals exact a

theorem awake_examine {c : GroupNo} (r : TrackRef) {s : State} (a : s.awake c) : (examine r s).1.awake c := by
  unfold examine
  split
  · split
    · exact awake_redecide _ _ a
    · exact a
  · exact a

theorem awake_doWork {c : GroupNo} (w : Work) {s : State} (hc : s.controlGroup = c) (a : s.awake c) :
    (doWork w s).1.awake c := by
  unfold doWork
  split
  · exact awake_wakeRequest _ _ hc a
  · exact awake_preWake _ hc a
  · exact awake_examine _ a
  · split
    · exact awake_examine _ a
    · exact a
  · unfold moveReady
    split
    · split
      · exact awake_groups (by rfl) (awake_place _ _ (awake_leave _ a))
      · exact a
    · exact a
  · split
    · exact awake_answerHeld _ _ a
    · exact a

/-- Every run of claims keeps the control group ACTIVE at D0 (R2, R24). -/
theorem awake_claim {c : GroupNo} (ws : List Work) {s : State} (hc : s.controlGroup = c) (a : s.awake c) :
    (claim ws s).awake c :=
  (claim_keeps (P := fun t => t.controlGroup = c ∧ t.awake c)
    (fun w t h => ⟨(congrArg Straps.cgs (doWork_only w t).straps).trans h.1, awake_doWork w h.1 h.2⟩)
    ws s ⟨hc, a⟩).2

/-! ## Group events -/

theorem control_of {s t : State} {c : GroupNo} (h : t.straps = s.straps) (hc : s.controlGroup = c) :
    t.controlGroup = c := (congrArg Straps.cgs h).trans hc

theorem awake_reachActive {g c : GroupNo} (hg : g ≠ c) {s : State} (hc : s.controlGroup = c) (a : s.awake c) :
    (reachActive g s).awake c := by
  unfold reachActive
  refine awake_claim _ ?_ ?_
  · exact control_of (((putGroup_claim g _ s (by rfl)).trans (raiseNotice_claim _ _)).trans
      (clearCause_only g _).toClaimOnly).straps hc
  · exact awake_setGroup_same (by rfl) (by rfl)
      (awake_cp (raiseNotice_only _ _) (awake_putGroup (fun e => absurd e hg) a))

theorem awake_fault {g c : GroupNo} (hg : g ≠ c) (why : FaultReason) {s : State} (hc : s.controlGroup = c)
    (a : s.awake c) : (fault g why s).awake c := by
  unfold fault
  refine awake_claim _ ?_ ?_
  · exact control_of (((putGroup_claim g _ s (by rfl)).trans (raiseNotice_claim _ _)).trans
      (clearCause_only g _).toClaimOnly).straps hc
  · exact awake_setGroup_same (by rfl) (by rfl)
      (awake_cp (raiseNotice_only _ _) (awake_putGroup (fun e => absurd e hg) a))

end Sys2Proof.Machine
end

