-- ==== Sys2Proof/Laws/Reports.lean ====
section
/-! SUPPORT. Laws/Reports.lean: which notices a shared operation hands over, beside mirrored changes; what that comes to for
the write list, the lost-notice set and re-mirror pending; when a mirror write is owed; and the bytes and writes of a
report. -/

namespace Sys2Proof.Machine

/-- Two states that agree outside the command processor and the free draws. -/
theorem CpOnly.withReports {s t : State} (h : CpOnly s t) : t = s.withReports t := by
  obtain ⟨h1, h2, h3, h4, h5, h6, h7, h8, h9, h10, h11, h12, h13, h14, h15, h16⟩ := h
  cases s; cases t
  simp only [State.withReports] at *
  subst_vars
  rfl

/-- Raising a notice changes the command processor and the free draws alone. -/
theorem raiseNotice_with (n : Notice) (s : State) : raiseNotice n s = s.withReports (raiseNotice n s) :=
  (raiseNotice_only n s).withReports

/-! ## The state around the command processor -/

/-- What a mirrored change and a notice read outside the command processor is the same. -/
structure Around (s t : State) : Prop where
  straps : t.straps = s.straps
  partTime : t.partTime = s.partTime
  writePlace : t.dp.writePlace = s.dp.writePlace
  isDown : t.dp.isDown .cpWrite = s.dp.isDown .cpWrite

theorem Around.refl (s : State) : Around s s := ⟨rfl, rfl, rfl, rfl⟩

theorem Around.symm {s t : State} (h : Around s t) : Around t s :=
  ⟨h.straps.symm, h.partTime.symm, h.writePlace.symm, h.isDown.symm⟩

theorem Around.trans {s t u : State} (h : Around s t) (k : Around t u) : Around s u :=
  ⟨k.straps.trans h.straps, k.partTime.trans h.partTime, k.writePlace.trans h.writePlace, k.isDown.trans h.isDown⟩

theorem ClaimOnly.around {s t : State} (h : ClaimOnly s t) : Around s t :=
  ⟨h.straps, h.partTime, h.writePlace, by simp only [DownPort.isDown, DownPort.find, h.slots]⟩

theorem PowerOnly.around {s t : State} (h : PowerOnly s t) : Around s t := h.toClaimOnly.around

theorem LineOnly.around {s t : State} (h : LineOnly s t) : Around s t := h.toPowerOnly.around

theorem CpOnly.around {s t : State} (h : CpOnly s t) : Around s t := h.toLineOnly.around

/-- A slot freed that carries no write of the command processor. -/
theorem freeTheSlot_around (s : State) (k : SlotNo) (h : s.dp.slots[k].map Slot.source ≠ some .cpWrite) :
    Around s (freeTheSlot k s) := by
  refine ⟨rfl, rfl, rfl, ?_⟩
  have slot : ∀ j : SlotNo, ((freeTheSlot k s).dp.slots[j].map Slot.source == some .cpWrite)
      = (s.dp.slots[j].map Slot.source == some .cpWrite) := by
    intro j
    by_cases e : k = j
    · subst e
      have none : (freeTheSlot k s).dp.slots[k] = none := Vector.getElem_set_self k.isLt
      rw [none, beq_eq_false_iff_ne.mpr h]
      rfl
    · have same : (freeTheSlot k s).dp.slots[j] = s.dp.slots[j] :=
        Vector.getElem_set_ne k.isLt j.isLt fun h => e (Fin.ext h)
      rw [same]
  simp only [DownPort.isDown, DownPort.find, slot]

theorem mirrorChange_around {s t : State} (h : Around s t) (c : t.cp = s.cp) : (mirrorChange t).cp = (mirrorChange s).cp := by
  have hs : t.headSet = s.headSet := by simp only [State.headSet, h.writePlace, h.isDown, c]
  simp only [mirrorChange, c, hs]
  split
  · simp [State.modCp, c]
  · split
    · exact c
    · simp [appendWrite, State.modCp, c]

theorem assignReport_around {s t : State} (r : Report) (b : Bool) (h : t.straps = s.straps) (c : t.cp = s.cp)
    (d : t.freeDraws = s.freeDraws) :
    (assignReport r b t).cp = (assignReport r b s).cp ∧ (assignReport r b t).freeDraws = (assignReport r b s).freeDraws := by
  simp [assignReport, appendBeat, appendWrite, State.modCp, State.setFreeDraws, h, c, d]

theorem overflowTest_around {s t : State} (h : t.straps = s.straps) (p : t.partTime = s.partTime) (c : t.cp = s.cp)
    (d : t.freeDraws = s.freeDraws) :
    (overflowTest t).cp = (overflowTest s).cp ∧ (overflowTest t).freeDraws = (overflowTest s).freeDraws := by
  obtain ⟨a, b⟩ := assignReport_around (.notice (.overflow s.cp.lostSet s.cp.lostTotal) s.partTime) false h c d
  unfold overflowTest
  rw [c, p]
  split
  · exact ⟨by simp [State.modCp, a], by simpa [State.modCp] using b⟩
  · exact ⟨c, d⟩

theorem raiseNotice_around {s t : State} (n : Notice) (h : t.straps = s.straps) (p : t.partTime = s.partTime)
    (c : t.cp = s.cp) (d : t.freeDraws = s.freeDraws) : (raiseNotice n t).cp = (raiseNotice n s).cp := by
  obtain ⟨a, b⟩ := overflowTest_around h p c d
  unfold raiseNotice
  rw [c]
  split
  · simp [loseNotice, State.modCp, c]
  · dsimp only
    rw [a, (overflowTest_only t).partTime, (overflowTest_only s).partTime, p]
    split
    · refine (assignReport_around _ _ ?_ a b).1
      rw [(overflowTest_only t).straps, (overflowTest_only s).straps, h]
    · simp [loseNotice, State.modCp, a]

theorem setCpState_around {s t : State} (st : CpState) (h : Around s t) (c : t.cp = s.cp) :
    (setCpState st t).cp = (setCpState st s).cp := by
  unfold setCpState
  rw [c]
  split
  · exact c
  · exact mirrorChange_around ⟨h.straps, h.partTime, h.writePlace, h.isDown⟩ (by simp only [State.modCp, c])

theorem postCompletion_around {s t : State} (r : CompletionReport) (h : Around s t) (c : t.cp = s.cp)
    (d : t.freeDraws = s.freeDraws) : (postCompletion r t).cp = (postCompletion r s).cp := by
  unfold postCompletion
  rw [c]
  split
  · exact setCpState_around _
      ((assignReport_only _ _ s).around.symm.trans (h.trans (assignReport_only _ _ t).around))
      (assignReport_around (.completion r) true h.straps c d).1
  · exact setCpState_around _ h c

/-! ## Notices handed over (R151, R152, R186 to R188) -/

theorem CmdProc.Reported.trans {a : State} {c d e : CmdProc} {ns ms : List Notice} (h : CmdProc.Reported a c ns d)
    (k : CmdProc.Reported a d ms e) : CmdProc.Reported a c (ns ++ ms) e := by
  induction h with
  | done => exact k
  | change _ ih => exact .change (ih k)
  | notice n draws _ ih => exact .notice n draws (ih k)

theorem CmdProc.Reported.around {a b : State} {c d : CmdProc} {ns : List Notice} (h : CmdProc.Reported a c ns d)
    (k : Around a b) : CmdProc.Reported b c ns d := by
  induction h with
  | done c => exact .done c
  | @change c _ _ _ ih =>
    refine .change ?_
    rw [mirrorChange_around (s := { a with cp := c }) (t := { b with cp := c }) ⟨k.straps, k.partTime, k.writePlace, k.isDown⟩ rfl]
    exact ih
  | @notice c _ _ n draws _ ih =>
    refine .notice n draws ?_
    rw [raiseNotice_around (s := { a with cp := c, freeDraws := draws }) (t := { b with cp := c, freeDraws := draws }) n k.straps k.partTime rfl rfl]
    exact ih

theorem State.reports.refl (s : State) : s.reports [] s := .done s.cp

/-- No report, and nothing else for the command processor. -/
theorem State.reports.of_eq {s t : State} (h : t.cp = s.cp) : s.reports [] t := by
  unfold State.reports
  rw [h]
  exact .done s.cp

theorem State.reports.trans {s t u : State} {ns ms : List Notice} (h : s.reports ns t) (a : Around s t)
    (k : t.reports ms u) : s.reports (ns ++ ms) u := CmdProc.Reported.trans h (CmdProc.Reported.around k a.symm)

/-- The reports of an operation, seen from a state before it that has the same command processor. -/
theorem State.reports.from {s t u : State} {ns : List Notice} (k : t.reports ns u) (a : Around s t) (c : t.cp = s.cp) :
    s.reports ns u := by
  have h := CmdProc.Reported.around k a.symm
  rwa [c] at h

theorem mirrorChange_reports (s : State) : s.reports [] (mirrorChange s) := .change (.done _)

theorem raiseNotice_reports (n : Notice) (s : State) : s.reports [n] (raiseNotice n s) := .notice n s.freeDraws (.done _)

theorem putGroup_reports (g : GroupNo) (r : GroupRec) (s : State) : s.reports [] (putGroup g r s) := by
  unfold putGroup
  split
  · exact .of_eq rfl
  · exact (mirrorChange_reports (s.setGroup g r)).from ⟨rfl, rfl, rfl, rfl⟩ rfl

theorem putLine_reports (n : LineNo) (l : SupplyLine) (s : State) : s.reports [] (putLine n l s) := by
  unfold putLine
  split
  · exact .of_eq rfl
  · exact (mirrorChange_reports (s.setLine n l)).from ⟨rfl, rfl, rfl, rfl⟩ rfl

theorem setBackpressure_reports (b : Bool) (s : State) : s.reports [] (setBackpressure b s) :=
  (mirrorChange_reports (s.modHold fun h => { h with backpressure := b })).from ⟨rfl, rfl, rfl, rfl⟩ rfl

/-! ## What the reports of an event come to -/

theorem Notice.code_lt (n : Notice) : n.code < 32 := by cases n <;> simp [Notice.code]

/-- The command processor has changed by writes added and notices lost alone, and the writes are records, REPORT_PRODUCER
writes that publish no completion, and mirror writes. -/
structure CmdProc.Added (c d : CmdProc) : Prop where
  fields : d = { c with
    writeList := d.writeList, reportProducer := d.reportProducer, reMirror := d.reMirror
    lostSet := d.lostSet, lostTotal := d.lostTotal }
  reMirror : d.reMirror = c.reMirror ∨ d.reMirror = true
  writes : ∃ ws : List CpWrite, d.writeList = c.writeList ++ ws
    ∧ ∀ w ∈ ws, w.kind = .record ∨ w.kind = .mirror ∨ ∃ v : BitVec 16, w.kind = .publish v false

theorem CmdProc.Added.refl (c : CmdProc) : c.Added c := ⟨rfl, .inl rfl, [], by simp, by simp⟩

theorem CmdProc.Added.trans {c d e : CmdProc} (h : c.Added d) (k : d.Added e) : c.Added e := by
  obtain ⟨ws, hw, hk⟩ := h.writes
  obtain ⟨vs, kw, kk⟩ := k.writes
  refine ⟨by rw [k.fields, h.fields], ?_, ws ++ vs, by rw [kw, hw, List.append_assoc], fun w m => ?_⟩
  · rcases k.reMirror with e | e
    · rw [e]; exact h.reMirror
    · exact .inr e
  · exact (List.mem_append.mp m).elim (hk w) (kk w)

theorem mirrorChange_added (s : State) : s.cp.Added (mirrorChange s).cp := by
  unfold mirrorChange
  split
  · exact ⟨rfl, .inr rfl, [], by simp [State.modCp], by simp⟩
  · split
    · exact .refl _
    · exact ⟨rfl, .inl rfl, [{ kind := .mirror, tx := none }], rfl, by simp⟩

theorem assignReport_added (r : Report) (s : State) : s.cp.Added (assignReport r false s).cp :=
  ⟨rfl, .inl rfl, _, List.append_assoc _ _ _, by simp⟩

theorem overflowTest_added (s : State) : s.cp.Added (overflowTest s).cp := by
  unfold overflowTest
  split
  · obtain ⟨f, m, w⟩ := assignReport_added (.notice (.overflow s.cp.lostSet s.cp.lostTotal) s.partTime) s
    exact ⟨rfl, m, w⟩
  · exact .refl _

theorem loseNotice_added (n : Notice) (s : State) : s.cp.Added (loseNotice n s).cp := ⟨rfl, .inl rfl, [], by simp [loseNotice, State.modCp], by simp⟩

theorem raiseNotice_added (n : Notice) (s : State) : s.cp.Added (raiseNotice n s).cp := by
  unfold raiseNotice
  split
  · exact loseNotice_added n s
  · dsimp only
    split
    · exact (overflowTest_added s).trans (assignReport_added _ _)
    · exact (overflowTest_added s).trans (loseNotice_added n _)

/-- Reports and mirrored changes come to added writes and lost notices (R151, R152, R187). -/
theorem CmdProc.Reported.added {a : State} {c d : CmdProc} {ns : List Notice} (h : CmdProc.Reported a c ns d) :
    c.Added d := by
  induction h with
  | done c => exact .refl c
  | @change c _ _ _ ih => exact (mirrorChange_added { a with cp := c }).trans ih
  | @notice c _ _ n draws _ ih => exact (raiseNotice_added n { a with cp := c, freeDraws := draws }).trans ih

theorem State.reports.added {s u : State} {ns : List Notice} (h : s.reports ns u) : s.cp.Added u.cp :=
  CmdProc.Reported.added h

/-! ## When a mirror write is owed (R152) -/

theorem CmdProc.Added.owesMirror {c d : CmdProc} (h : c.Added d) (o : c.owesMirror) : d.owesMirror := by
  obtain ⟨ws, hw, _⟩ := h.writes
  rcases o with o | ⟨w, m, k⟩
  · exact .inl (h.reMirror.elim (fun e => e.trans o) id)
  · exact .inr ⟨w, by rw [hw]; exact List.mem_append_left _ m, k⟩

/-- After a mirrored change a mirror write is owed. -/
theorem mirrorChange_owes (s : State) : (mirrorChange s).cp.owesMirror := by
  unfold mirrorChange
  split
  · exact .inl rfl
  · split
    · next h =>
      obtain ⟨w, m, k⟩ := List.any_eq_true.mp h
      exact .inr ⟨w, m, by simpa [CpWrite.isMirror] using k⟩
    · exact .inr ⟨{ kind := .mirror, tx := none }, by simp [appendWrite, State.modCp], rfl⟩

/-! ## The writes of a report (R151, R195) -/

theorem Notice.txBytes_length (n : Notice) : n.txBytes.length = 8 := by cases n <;> rfl

theorem causeBytes_length (c : Option (BitVec 16)) : (causeBytes c).length = 3 := by cases c <;> rfl

/-- A report record is 32 bytes. -/
theorem reportImage_length (r : Report) : (reportImage r).length = 32 := by
  cases r <;>
    simp [reportImage, le32, le16, zeros, causeBytes_length, Notice.txBytes_length]

/-- The write of a 16-bit header word. -/
theorem beatWrite_carriesWord (k : WriteKind) (p : Straps) (draw offset : Nat) (v : BitVec 16) :
    ({ kind := k, tx := some (beatWrite p draw offset (le16 v)) } : CpWrite).carriesWord p k offset v := by
  refine ⟨(List.range 14).map fun i => Config.disabledByte draw (2 + i), by simp, ?_⟩
  simp [beatWrite, blockWrite, le16]

/-- Assigning a report appends its two writes. -/
theorem assignReport_writes (r : Report) (b : Bool) (s : State) :
    ∃ ws : List CpWrite, (assignReport r b s).cp.writeList = s.cp.writeList ++ ws
      ∧ reportWrites s.straps s.cp.reportProducer r b ws := by
  refine ⟨_, (List.append_assoc _ _ _), _, beatWrite_carriesWord _ _ s.freeDraws _ _, ?_⟩
  simp [blockWrite, reportImage_length, Config.reportSlots, State.modCp, appendWrite]

theorem assignReport_reportProducer (r : Report) (b : Bool) (s : State) :
    (assignReport r b s).cp.reportProducer = s.cp.reportProducer + 1 := rfl

/-- A change of the command processor's state appends a mirror write at most. -/
theorem setCpState_writes (st : CpState) (s : State) :
    ∃ post : List CpWrite, (setCpState st s).cp.writeList = s.cp.writeList ++ post ∧ ∀ w ∈ post, w.kind = .mirror := by
  unfold setCpState mirrorChange
  split
  · exact ⟨[], by simp⟩
  · split
    · exact ⟨[], by simp [State.modCp]⟩
    · split
      · exact ⟨[], by simp [State.modCp]⟩
      · exact ⟨[{ kind := .mirror, tx := none }], rfl, by simp⟩

end Sys2Proof.Machine
end

