-- ==== Sys2Proof/Laws/HoldQueue.lean ====
section
/-! SUPPORT. Laws/HoldQueue.lean: what the backpressure test and the leaving of an entry make of the state. -/

namespace Sys2Proof.Machine

/-- A mirrored change alters the command processor and the free draws alone. -/
theorem mirrorChange_with (s : State) : mirrorChange s = s.withReports (mirrorChange s) := (mirrorChange_only s).withReports

/-- The backpressure test sets the flag by the occupancy (R82), and adds reports and mirror writes. -/
theorem backpressureTest_with (s : State) :
    backpressureTest s = { s.withReports (backpressureTest s) with
      hold := { s.hold with backpressure := s.hold.flagAt s.hold.entries.length } } := by
  unfold backpressureTest
  dsimp only
  split
  · next h =>
    rw [raiseNotice_with, setBackpressure, mirrorChange_with]
    simp [State.withReports, State.modHold, HoldQueue.flagAt, h.1, h.2]
  · next h =>
    split
    · next h2 =>
      rw [raiseNotice_with, setBackpressure, mirrorChange_with]
      simp [State.withReports, State.modHold, HoldQueue.flagAt, h2.1]
      omega
    · next h2 =>
      have : s.hold.flagAt s.hold.entries.length = s.hold.backpressure := by
        unfold HoldQueue.flagAt
        cases hb : s.hold.backpressure <;> simp_all
      rw [this]
      rfl

/-- The notice of the backpressure test is that of the table of R82. -/
theorem backpressureTest_reports (s : State) :
    s.reports (s.hold.noticesAt s.hold.entries.length) (backpressureTest s) := by
  have told : ∀ (b : Bool) (n : Notice), s.reports [n] (raiseNotice n (setBackpressure b s)) := fun b n =>
    (setBackpressure_reports b s).trans
      ((modHold_claim _ s rfl).around.trans (setBackpressure_only b s).around) (raiseNotice_reports n _)
  unfold backpressureTest HoldQueue.noticesAt
  dsimp only
  split
  · next h => simpa [h.1, h.2] using told false (.queueNormal _ _)
  · next h =>
    split
    · next h2 => simpa [h2.1, h2.2] using told true (.queueHigh _ _)
    · next h2 => simpa [h, h2] using State.reports.refl s

/-- An entry that leaves the hold queue: what `State.left` says (R79, R82). -/
theorem leave_left (e : HoldEntry) (s : State) :
    leave e s = s.left (leave e s) e (s.hold.entries.filter fun x => x.ref != e.ref) := by
  unfold leave
  dsimp only
  rw [backpressureTest_with]
  rfl

/-- The notice of an entry that leaves is that of the backpressure test at what is left. -/
theorem leave_reports (e : HoldEntry) (s : State) :
    s.reports (s.hold.noticesAt (s.hold.entries.filter fun x => x.ref != e.ref).length) (leave e s) := by
  let t : State := ((s.modHold fun h => { h with entries := h.entries.filter fun x => x.ref != e.ref }).modReq e.requester
    fun q => { q with held := q.held - 1 }).setGroup e.group { s.groups[e.group] with held := s.groups[e.group].held - 1 }
  exact (backpressureTest_reports t).from (s := s) ⟨rfl, rfl, rfl, rfl⟩ rfl

end Sys2Proof.Machine
end

