-- ==== Sys2Proof/Laws/Ring.lean ====
section
/-! SUPPORT. Laws/Ring.lean: how every ring command is executed: the slot is freed, the command in hand begins, its verdict
is found, and its completion is posted or waits (R154, R155, R163). -/

namespace Sys2Proof.Machine

theorem setCpState_state (st : CpState) (s : State) : (setCpState st s).cp.state = st := by
  unfold setCpState
  split
  · assumption
  · rw [(mirrorChange_added _).fields]; rfl

theorem setCpState_inHand (st : CpState) (s : State) : (setCpState st s).cp.inHand = s.cp.inHand := by
  unfold setCpState
  split
  · rfl
  · rw [(mirrorChange_added _).fields]; rfl

theorem setCpState_reportProducer (st : CpState) (s : State) :
    (setCpState st s).cp.reportProducer = s.cp.reportProducer := by
  unfold setCpState mirrorChange
  split
  · rfl
  · split
    · rfl
    · split <;> rfl

theorem setCpState_freeReports (st : CpState) (s : State) : (setCpState st s).cp.freeReports = s.cp.freeReports := by
  unfold setCpState mirrorChange
  split
  · rfl
  · split
    · rfl
    · split <;> rfl

/-- The state in which the command in hand begins to be executed. -/
def begun (k : SlotNo) (h : InHand) (tag : BitVec 16) (body : CmdBody) (s : State) : State :=
  beginExecution h tag body (freeTheSlot k s.begin)

theorem begun_inHand (k : SlotNo) (h : InHand) (tag : BitVec 16) (body : CmdBody) (s : State) :
    (begun k h tag body s).cp.inHand = some { h with fetched := some (tag, body) } := setCpState_inHand _ _

theorem begun_state (k : SlotNo) (h : InHand) (tag : BitVec 16) (body : CmdBody) (s : State) :
    (begun k h tag body s).cp.state = .executing := setCpState_state _ _

/-- The command processor of that state, in the words of the statements. -/
theorem begun_cp (k : SlotNo) (h : InHand) (tag : BitVec 16) (body : CmdBody) (s : State) :
    (begun k h tag body s).cp = (s.afterCommand k s).executing { h with fetched := some (tag, body) } := rfl

/-- Outside the command processor a command that begins finds the state as it was, but for the freed slot. -/
theorem begun_frame (k : SlotNo) (h : InHand) (tag : BitVec 16) (body : CmdBody) (s : State) :
    CpOnly (s.afterCommand k s) (begun k h tag body s) := by
  refine .trans ?_ (beginExecution_only h tag body _)
  constructor <;> rfl

/-- The slot of an awaited fetch is executed at the event that delivers it. -/
theorem deliverSlot_awaited {s : State} {k : SlotNo} {h : InHand} (a : s.awaits k h) (tag : BitVec 16) (body : CmdBody) :
    deliverSlot tag body s.begin = runCommand h.seq body (begun k h tag body s) := by
  obtain ⟨a1, a2, a3, a4⟩ := a
  have e1 : s.begin.dp.find .cpFetch = some k := a1
  have e2 : (freeTheSlot k s.begin).cp = s.cp := rfl
  unfold deliverSlot
  rw [e1]
  dsimp only
  unfold fetchOk
  rw [e2, a4, a2, a3]
  rfl

/-- A completion that asks for a slot is posted, or waits (R155, R186). -/
theorem postCompletion_completed (r : CompletionReport) (s : State) (h : s.cp.inHand.bind InHand.completion = some r) :
    (postCompletion r s).completed r := by
  unfold postCompletion
  split
  · obtain ⟨ws, hw, hr⟩ := assignReport_writes (.completion r) true s
    obtain ⟨post, hp, hm⟩ := setCpState_writes .posting (assignReport (.completion r) true s)
    refine ⟨?_, Or.inl ⟨setCpState_state _ _, s.cp.writeList, ws, post, by rw [hp, hw], ?_, hm⟩⟩
    · rw [setCpState_inHand]; exact h
    · rw [(setCpState_only _ _).straps, (assignReport_only _ _ _).straps, setCpState_reportProducer,
        assignReport_reportProducer, BitVec.add_sub_cancel]
      exact hr
  · next hf =>
    refine ⟨by rw [setCpState_inHand]; exact h, Or.inr ⟨setCpState_state _ _, ?_⟩⟩
    rw [setCpState_freeReports]
    exact Nat.eq_zero_of_not_pos hf

/-- The end of execution posts the completion of the command in hand, or lets it wait. -/
theorem endExecution_posts (v : Verdict) (h : InHand) (tag : BitVec 16) (body : CmdBody)
    (hh : v.state.cp.inHand = some { h with fetched := some (tag, body) }) :
    let r := h.report tag body v.result v.detail v.state.partTime
    endExecution v = postCompletion r (v.state.modCp fun c =>
      { c with inHand := some { h with fetched := some (tag, body), completion := some r } }) := by
  unfold endExecution
  dsimp only
  rw [hh]
  rfl

/-- Every ring command whose verdict keeps the command in hand is executed with the report of that verdict. -/
theorem executes_of_verdict {s : State} {k : SlotNo} {h : InHand} {i : Instr} {tag : BitVec 16} {body : CmdBody}
    {v : Verdict} {ns : List Notice} {effect : State → State → Prop} (a : s.awaits k h)
    (hi : exec i s = .next (finish (deliverSlot tag body s.begin)))
    (hv : verdict h.seq body (begun k h tag body s) = some v)
    (hc : (begun k h tag body s).reports ns v.state) (ha : Around (begun k h tag body s) v.state)
    (he : effect (s.afterCommand k (endExecution v)) (endExecution v)) :
    s.executes k i (h.report tag body v.result v.detail s.partTime) ns effect := by
  have hh : v.state.cp.inHand = some { h with fetched := some (tag, body) } := by
    rw [hc.added.fields]; exact begun_inHand k h tag body s
  have ha' : Around (s.afterCommand k s) v.state := (begun_frame k h tag body s).around.trans ha
  have e := endExecution_posts v h tag body hh
  rw [ha'.partTime] at e
  have hd : deliverSlot tag body s.begin = endExecution v := by
    rw [deliverSlot_awaited a]
    unfold runCommand
    rw [hv]
  refine ⟨endExecution v, by rw [hi, hd], ?_, ?_, he⟩
  · rw [e]; exact postCompletion_completed _ _ rfl
  · refine ⟨h, { h with fetched := some (tag, body) }, body, v.state.cp, v.state.freeDraws, a.2.2.1, rfl, rfl, ?_, ?_⟩
    · exact CmdProc.Reported.around hc (begun_frame k h tag body s).around.symm
    · rw [e]
      exact postCompletion_around _ ⟨ha'.straps, ha'.partTime, ha'.writePlace, ha'.isDown⟩ rfl rfl

/-- Every ring command delivers its slot. -/
theorem exec_ring {i : Instr} {tag : BitVec 16} {body : CmdBody} (hb : ringBody i = some (tag, body)) (s : State) :
    exec i s = .next (finish (deliverSlot tag body s.begin)) := by
  cases i <;> simp only [ringBody, Option.some.injEq, Prod.mk.injEq, reduceCtorEq] at hb <;>
    (obtain ⟨rfl, rfl⟩ := hb; rfl)

/-- A verdict that leaves the state it was given: the command changes nothing but the command processor's. -/
theorem executes_of_unchanged {s : State} {k : SlotNo} {h : InHand} {i : Instr} {tag : BitVec 16} {body : CmdBody}
    {r : Result} {d : BitVec 32} (a : s.awaits k h) (hb : ringBody i = some (tag, body))
    (hv : verdict h.seq body (begun k h tag body s) = some ⟨begun k h tag body s, r, d⟩) :
    s.executes k i (h.report tag body r d s.partTime) [] fun s' u => u = s' := by
  refine executes_of_verdict a (exec_ring hb s) hv (.refl _) (.refl _) ?_
  exact ((begun_frame k h tag body s).trans (endExecution_only ⟨begun k h tag body s, r, d⟩)).withReports

end Sys2Proof.Machine
end

