-- ==== Sys2Proof/Laws/Supply.lean ====
section
/-! SUPPORT. Laws/Supply.lean: what an evaluation of a line, and a report to the supply line unit, make of the state. -/

namespace Sys2Proof.Machine

/-- A line record is written as given; the rest is a mirrored change. -/
theorem putLine_with (n : LineNo) (l : SupplyLine) (s : State) :
    putLine n l s = (s.setLine n l).withReports (putLine n l s) := (putLine_only n l s).withReports

/-- A line record written as it stands. -/
theorem setLine_self (s : State) (n : LineNo) {l : SupplyLine} (h : s.slu.lines[n] = l) :
    s.slu.lines.set n l = s.slu.lines := by
  rw [← h]
  exact Vector.set_getElem_self n.isLt

/-- A line is OFF after an evaluation exactly when its off condition holds (R117). -/
theorem SupplyLine.evaluated_off_iff (l : SupplyLine) (c : Bool) : (l.evaluated c).state = .off ↔ c = true := by
  unfold SupplyLine.evaluated SupplyLine.needed
  cases c <;> cases h : l.state <;> simp [h]

/-- The off condition reads the forced flag, the dependency set and the threshold alone, which no evaluation changes. -/
theorem offCondition_evaluated (s : State) (l : SupplyLine) (c : Bool) :
    s.offCondition (l.evaluated c) = s.offCondition l := by
  unfold SupplyLine.evaluated SupplyLine.needed
  split <;> split <;> rfl

/-- An evaluation follows the table of R117. -/
theorem evaluateLine_with (n : LineNo) (s : State) :
    evaluateLine n s = { s.withReports (evaluateLine n s) with
      slu := { s.slu with lines := s.slu.lines.set n (s.slu.lines[n].evaluated (s.offCondition s.slu.lines[n])) } } := by
  unfold evaluateLine
  dsimp only
  generalize hl : s.slu.lines[n] = l
  generalize s.offCondition l = c
  have self := setLine_self s n hl
  obtain ⟨_, _, _, _, _, st, _⟩ := l
  cases st <;> cases c <;>
    simp only [SupplyLine.evaluated, SupplyLine.needed, reduceCtorEq, ↓reduceIte] <;>
    first
    | (rw [raiseNotice_with, putLine_with]; rfl)
    | (rw [putLine_with]; rfl)
    | (rw [self]; rfl)

/-- An evaluation that takes a line OFF hands LINE_STATE over (R124); no other hands anything over. -/
theorem evaluateLine_reports (n : LineNo) (s : State) :
    s.reports (if s.slu.lines[n].state ≠ .off ∧ s.offCondition s.slu.lines[n] = true then
      [.lineState n .off s.slu.lines[n].offLevel] else []) (evaluateLine n s) := by
  have told : ∀ l m, s.reports [m] (raiseNotice m (putLine n l s)) := fun l m =>
    (putLine_reports n l s).trans (putLine_lineOnly n l s).around (raiseNotice_reports m _)
  unfold evaluateLine
  dsimp only
  generalize s.slu.lines[n] = l
  generalize s.offCondition l = c
  obtain ⟨_, _, _, _, _, st, _⟩ := l
  cases st <;> cases c <;> simp only [ne_eq, reduceCtorEq, not_false_eq_true, not_true_eq_false, and_true, and_false,
    and_self, ↓reduceIte]
  · exact .refl s
  · exact told _ _
  · exact .refl s
  · exact told _ _
  · exact putLine_reports _ _ s
  · exact .refl s

/-! ## Reports of the group controllers (R116) -/

/-- Evaluations of the lines of a list, each at most once, that a group needs. -/
theorem evaluateLines_with (g : GroupNo) (ns : List LineNo) (u : ns.Nodup) (s : State) :
    let t := ns.foldl (fun s n => if s.lineNeeds g n then evaluateLine n s else s) s
    t = { s.withReports t with slu := { s.slu with lines := t.slu.lines } }
      ∧ s.reports ((ns.filter fun n => s.lineNeeds g n && s.slu.lines[n].state != .off
          && s.offCondition s.slu.lines[n]).map fun n => .lineState n .off s.slu.lines[n].offLevel) t
      ∧ ∀ n : LineNo, t.slu.lines[n] =
        if n ∈ ns ∧ s.lineNeeds g n = true then s.slu.lines[n].evaluated (s.offCondition s.slu.lines[n])
        else s.slu.lines[n] := by
  induction ns generalizing s with
  | nil => exact ⟨rfl, .refl _, fun n => by simp⟩
  | cons m ns ih =>
    obtain ⟨hm, hu⟩ := List.nodup_cons.mp u
    by_cases hn : s.lineNeeds g m = true
    case neg =>
      simp only [List.foldl_cons, hn, Bool.false_eq_true, ↓reduceIte]
      obtain ⟨a, b, c⟩ := ih hu s
      refine ⟨a, by simpa [hn] using b, fun n => (c n).trans ?_⟩
      by_cases e : n = m
      · subst e; simp [hn]
      · simp [e]
    case pos =>
      simp only [List.foldl_cons, hn, ↓reduceIte]
      obtain ⟨a, b, c⟩ := ih hu (evaluateLine m s)
      have w := evaluateLine_with m s
      have lines : ∀ n : LineNo, n ≠ m → (evaluateLine m s).slu.lines[n] = s.slu.lines[n] := by
        intro n e
        rw [w]
        exact Vector.getElem_set_ne m.isLt n.isLt (fun h => e (Fin.ext h.symm))
      have line : (evaluateLine m s).slu.lines[m] = s.slu.lines[m].evaluated (s.offCondition s.slu.lines[m]) := by
        rw [w]
        exact Vector.getElem_set_self m.isLt
      have cond : ∀ l, (evaluateLine m s).offCondition l = s.offCondition l := by
        intro l
        rw [w]
        rfl
      refine ⟨?_, ?_, fun n => (c n).trans ?_⟩
      · generalize List.foldl _ _ ns = t at a ⊢
        rw [a, w]
        rfl
      · have kept : ∀ n ∈ ns, (evaluateLine m s).slu.lines[n] = s.slu.lines[n] := fun n h =>
          lines n fun e => hm (e ▸ h)
        have same : (ns.filter fun n => (evaluateLine m s).lineNeeds g n && (evaluateLine m s).slu.lines[n].state != .off
              && (evaluateLine m s).offCondition (evaluateLine m s).slu.lines[n]).map
                (fun n => Notice.lineState n .off (evaluateLine m s).slu.lines[n].offLevel)
            = (ns.filter fun n => s.lineNeeds g n && s.slu.lines[n].state != .off
                && s.offCondition s.slu.lines[n]).map fun n => .lineState n .off s.slu.lines[n].offLevel := by
          refine (congrArg (List.map _) (List.filter_congr fun n h => ?_)).trans (List.map_congr_left fun n h => ?_)
          · simp only [State.lineNeeds, kept n h, cond]
          · rw [kept n (List.mem_filter.mp h).1]
        rw [same] at b
        have h := (evaluateLine_reports m s).trans (evaluateLine_only m s).around b
        rw [List.filter_cons]
        by_cases off : s.slu.lines[m].state ≠ .off ∧ s.offCondition s.slu.lines[m] = true
        · rw [if_pos off] at h
          rw [if_pos (by simp only [hn, bne_iff_ne.mpr off.1, off.2, Bool.and_self])]
          exact h
        · rw [if_neg off] at h
          rw [if_neg (by rw [hn, Bool.true_and, Bool.and_eq_true, bne_iff_ne]; exact off)]
          exact h
      · by_cases e : n = m
        · subst e
          simp [hm, hn, line]
        · simp only [State.lineNeeds, lines n e, cond, List.mem_cons, e, false_or]

/-- A report to the supply line unit: what `State.told` says, and LINE_STATE notices. -/
theorem reportSleep_told (g : GroupNo) (v : Option Sleep) (s : State) :
    reportSleep g v s = { s.withReports (reportSleep g v s) with slu := (s.told g v).slu } := by
  obtain ⟨a, _, c⟩ := evaluateLines_with g allLines (by decide) (s.modSlu fun u => { u with view := u.view.set g v })
  unfold reportSleep
  generalize List.foldl _ _ allLines = t at a c ⊢
  have lines : t.slu.lines = (s.told g v).slu.lines := by
    refine Vector.ext fun i hi => ?_
    have h := c ⟨i, hi⟩
    simp only [mem_allLines, true_and] at h
    refine h.trans ?_
    simp only [State.told, Vector.getElem_map]
    rfl
  rw [a, lines]
  rfl

/-- A report hands LINE_STATE over for the lines that it takes OFF, and nothing else (R124). -/
theorem reportSleep_reports (g : GroupNo) (v : Option Sleep) (s : State) :
    s.reports (s.wentOff g v) (reportSleep g v s) := by
  have h := (evaluateLines_with g allLines (by decide) (s.modSlu fun u => { u with view := u.view.set g v })).2.1
  have same : ∀ n : LineNo, (s.slu.lines[n].state != .off && (s.told g v).slu.lines[n].state == .off)
      = ((s.modSlu fun u => { u with view := u.view.set g v }).lineNeeds g n && s.slu.lines[n].state != .off
        && (s.modSlu fun u => { u with view := u.view.set g v }).offCondition s.slu.lines[n]) := by
    intro n
    simp only [State.told, State.lineNeeds, State.modSlu, Fin.getElem_fin, Vector.getElem_map]
    cases hd : s.slu.lines[n.val].deps.getLsbD g.val
    · rw [if_neg (by decide), Bool.false_and, Bool.false_and]
      cases s.slu.lines[n.val].state <;> rfl
    · rw [if_pos rfl, Bool.true_and]
      congr 1
      rw [Bool.eq_iff_iff, beq_iff_eq]
      exact SupplyLine.evaluated_off_iff _ _
  have e : s.wentOff g v = (allLines.filter fun n => (s.modSlu fun u => { u with view := u.view.set g v }).lineNeeds g n
      && s.slu.lines[n].state != .off
      && (s.modSlu fun u => { u with view := u.view.set g v }).offCondition s.slu.lines[n]).map
        fun n => .lineState n .off s.slu.lines[n].offLevel := by
    unfold State.wentOff
    rw [List.filter_congr fun n _ => same n]
  rw [e]
  exact h.from ⟨rfl, rfl, rfl, rfl⟩ rfl

/-- A report that the group is not asleep: of the lines it needs, those found OFF settle and the others stay (R118). -/
theorem told_none_line (s : State) (g : GroupNo) (n : LineNo) :
    (s.told g none).slu.lines[n] = if s.lineNeeds g n = true then s.slu.lines[n].needed else s.slu.lines[n] := by
  have fails : ∀ (u : State) (l : SupplyLine), u.slu.view[g] = none → l.deps.getLsbD g.val = true →
      u.offCondition l = false := by
    intro u l hv hd
    refine Bool.eq_false_iff.mpr fun h => ?_
    simpa [hv] using ((offCondition_iff u l).mp h).2.2 g hd
  simp only [State.told, State.lineNeeds, Fin.getElem_fin, Vector.getElem_map]
  by_cases hd : s.slu.lines[n.val].deps.getLsbD g.val = true
  · simp only [hd, ↓reduceIte]
    rw [fails _ _ (Vector.getElem_set_self g.isLt) hd]
    rfl
  · simp only [hd]
    rfl

/-- A report keeps the off law and its converse: a line that does not depend on the group reads no changed view, and every
other is evaluated (R117). -/
theorem told_laws (s : State) (g : GroupNo) (v : Option Sleep) :
    (s.suppliesHold → (s.told g v).suppliesHold) ∧ (s.suppliesSleep → (s.told g v).suppliesSleep) := by
  have view : ∀ l : SupplyLine, l.deps.getLsbD g.val = false → (s.told g v).offCondition l = s.offCondition l := by
    intro l hd
    have met : ∀ h : GroupNo, l.deps.getLsbD h.val = true → (s.told g v).slu.view[h] = s.slu.view[h] := by
      intro h hh
      have e : g.val ≠ h.val := fun e => by rw [e, hh] at hd; cases hd
      exact Vector.getElem_set_ne g.isLt h.isLt e
    rw [Bool.eq_iff_iff, offCondition_iff, offCondition_iff]
    refine and_congr_right fun _ => and_congr_right fun _ => forall_congr' fun h => ?_
    exact imp_congr_right fun hh => by rw [met h hh]
  have agree : ∀ n : LineNo,
      ((s.told g v).slu.lines[n].state = .off ↔ (s.told g v).offCondition (s.told g v).slu.lines[n] = true)
        ∨ ((s.told g v).slu.lines[n] = s.slu.lines[n]
          ∧ (s.told g v).offCondition s.slu.lines[n] = s.offCondition s.slu.lines[n]) := by
    intro n
    by_cases hd : s.slu.lines[n].deps.getLsbD g.val = true
    · left
      have line : (s.told g v).slu.lines[n] = s.slu.lines[n].evaluated ((s.told g v).offCondition s.slu.lines[n]) := by
        simp only [Fin.getElem_fin] at hd
        simp only [State.told, Fin.getElem_fin, Vector.getElem_map, hd, ↓reduceIte]
        rfl
      rw [line, offCondition_evaluated, SupplyLine.evaluated_off_iff]
    · right
      refine ⟨?_, view _ (Bool.eq_false_iff.mpr hd)⟩
      simp only [Fin.getElem_fin] at hd
      simp only [State.told, Fin.getElem_fin, Vector.getElem_map, hd]
      rfl
  refine ⟨fun h n off => ?_, fun h n c => ?_⟩
  · rcases agree n with a | ⟨a, b⟩
    · exact a.mp off
    · rw [a] at off ⊢
      exact b.trans (h n off)
  · rcases agree n with a | ⟨a, b⟩
    · exact a.mpr c
    · rw [a] at c ⊢
      exact h n (b.symm.trans c)

end Sys2Proof.Machine
end

