-- ==== Sys2Proof/Tests/Slice0.lean ====
section
/-! SUPPORT. Tests/Slice0.lean: the smoke test of WellFormed, one small step for each command, and for each obligation with
hypotheses states that meet them, clause by clause. -/

namespace Sys2Proof.Tests

open Sys2Proof Sys2Proof.Machine

set_option Elab.async false

/-! ## WellFormed -/

def aRead (q : ReqNo) (tag : Tag) (a : Addr) : Request := ⟨q, tag, .read, a, 1, [], []⟩

theorem test_refuses_three_requests_of_one_requester :
    (Instr.admission [aRead 1 0 0, aRead 1 1 16, aRead 1 2 32]).wellFormed = false := by decide

theorem test_takes_two_requests_of_one_requester :
    (Instr.admission [aRead 1 0 0, aRead 1 1 16, aRead 2 2 32]).wellFormed = true := by decide

theorem test_refuses_read_data_beyond_sixteen_beats :
    (Instr.completion 0 0 .ok (some (List.replicate 257 0))).wellFormed = false := by decide +kernel

theorem test_refuses_word_writes_without_an_enable :
    (Instr.cmdProducer 0 0 1 0).wellFormed = false ∧ (Instr.reportConsumer 0 0 1 0).wellFormed = false
      ∧ (Instr.irqEnable 0 0 1 0).wellFormed = false ∧ (Instr.restartRequest 0 0 1 0).wellFormed = false := by decide

/-- A write of n beats, every byte 7 and enabled. -/
def blockTest (offset : BitVec 13) (n : Nat) : Instr :=
  .controlBlockWrite 0 0 offset n (List.replicate (16 * n) 7) (List.replicate (16 * n) true)

theorem test_refuses_unaligned_offset : (blockTest 0x408 1).wellFormed = false := by decide +kernel
theorem test_refuses_zero_length : (blockTest 0x400 0).wellFormed = false := by decide +kernel
theorem test_refuses_seventeen_beats : (blockTest 0x400 17).wellFormed = false := by decide +kernel
theorem test_refuses_a_write_across_the_page : (blockTest 0xFF0 2).wellFormed = false := by decide +kernel
theorem test_refuses_a_write_of_a_watched_word : (blockTest 0 1).wellFormed = false := by decide +kernel

theorem test_refuses_missing_data_or_enables :
    (Instr.controlBlockWrite 0 0 0x400 1 [] (List.replicate 16 true)).wellFormed = false
      ∧ (Instr.controlBlockWrite 0 0 0x400 1 (List.replicate 16 0) []).wellFormed = false := by decide

theorem test_takes_a_slot_write : (blockTest 0x400 4).wellFormed = true ∧ (blockTest 0x10 1).wellFormed = true := by
  decide +kernel

/-! ## Small states -/

/-- What a command makes of a state. -/
def ran (i : Instr) (s : State) : State :=
  match exec i s with
  | .next t => t
  | .refused _ => s

/-- Reset, with the initial header write over. -/
def idle : State :=
  { State.reset with
    cp := { State.reset.cp with writeList := [], headerDone := true }
    dp := { State.reset.dp with writePlace := none } }

def inGroup (g : GroupNo) (f : GroupRec → GroupRec) (s : State) : State := s.setGroup g (f s.groups[g])

def hand : InHand := { seq := 0x77, issuer := 9 }

/-- The fetch of the command in hand is downstream in slot 4. -/
def fetching (s : State) : State :=
  { s with
    cp := { s.cp with state := .fetching, inHand := some hand, fetchStale := false, producerShadow := 0x78, cmdConsumer := 0x77
                      marks := [{ value := 0x78, requester := 9, seq := 0 }] }
    dp := { s.dp with slots := s.dp.slots.set (4 : SlotNo) (some ⟨.cpFetch, .read, 4⟩) } }

def ready : State := fetching idle

/-- A one-beat transaction to page 8 of a group. -/
def beat (k : Kind) (g : GroupNo) : Tx :=
  { kind := k, address := BitVec.ofNat 34 (g.val * 67108864 + 32768), length := 1
    data := if k = .write then List.replicate 16 0x5A else []
    enables := if k = .write then List.replicate 16 true else [] }

def request (k : Kind) (g : GroupNo) : Request :=
  { requester := 3, tag := 7, kind := k, address := (beat k g).address, length := 1, data := (beat k g).data
    enables := (beat k g).enables }

/-- An entry of a requester for a group. -/
def entryOf (q : ReqNo) (n : Nat) (g : GroupNo) (st : HoldState) (why : HoldReason) : HoldEntry :=
  { ref := ⟨q, BitVec.ofNat 8 n⟩, seq := BitVec.ofNat 32 n, group := g, cls := 0, tx := beat .write g, state := st
    reason := why }

def entry (n : Nat) (g : GroupNo) (st : HoldState) (why : HoldReason) : HoldEntry := entryOf 3 n g st why

/-- The entry stands in the hold queue and in the tracking table, and is counted. -/
def holding (e : HoldEntry) (s : State) : State :=
  inGroup e.group (fun r => { r with held := r.held + 1 })
    { s with
      hold := { s.hold with entries := s.hold.entries ++ [e] }
      au := { s.au with
        tracking := s.au.tracking ++ [{ ref := e.ref, seq := e.seq, tx := e.tx, group := some e.group, control := false
                                        cls := some e.cls, state := .held, status := none, readData := none }] }
      requesters := s.requesters.set e.requester
        { s.requesters[e.requester] with
          held := s.requesters[e.requester].held + 1, outstanding := s.requesters[e.requester].outstanding + 1 } }

/-- A tracked transaction of a group. -/
def tracked (k : Kind) (g : GroupNo) (control : Bool) (st : TrackState) (status : Option Status) : TrackEntry :=
  { ref := ⟨3, 9⟩, seq := 5, tx := beat k g, group := some g, control := control
    cls := if control then none else some 0, state := st, status := status, readData := none }

def withEntry (e : TrackEntry) (s : State) : State := { s with au := { s.au with tracking := s.au.tracking ++ [e] } }

/-- A transaction of a group is downstream in slot 31, and is counted. -/
def inFlight (k : Kind) (g : GroupNo) (control : Bool) : State :=
  let e := tracked k g control .inFlight none
  inGroup g (fun r => { r with inFlight := 1 }) (withEntry e
    { idle with dp := { idle.dp with slots := idle.dp.slots.set (31 : SlotNo) (some ⟨.forward e.ref (some g), k, 1⟩) } })

def queued : State :=
  let e := tracked .write 5 false .queued none
  withEntry e { idle with dp := { idle.dp with forward := [e.ref], takeReady := true } }

def entering (d : Sleep) : State :=
  inGroup 5 (fun r => { r with state := .entering, target := some d, timer := some 0 }) idle

def exiting (cold retry : Bool) : State :=
  inGroup 5 (fun r =>
    { r with
      state := .waking, wakeSub := some .exiting, depth := .off, coldExit := cold, retryUsed := retry
      timer := some 0 }) idle

def settled : State :=
  inGroup 5 (fun r =>
    { r with state := .waking, wakeSub := some .lines, depth := .off, coldExit := true, timer := some 0 }) idle

def asleep (d : Depth) (s : State) : State :=
  { inGroup 5 (fun r => { r with state := .asleep, depth := d }) s with
    slu := { s.slu with view := s.slu.view.set (5 : GroupNo) (viewOf d) } }

def withLine (l : SupplyLine) (s : State) : State := s.setLine 2 l
def withRegion (p : Policy) (s : State) : State :=
  s.setRegion 47
    { valid := true, basePage := 81928, pageCount := 2, policy := p, fill := some 3, mask := 0, readAllowed := true
      writeAllowed := false, lost := true }
def withWake (w : WakeLine) (s : State) : State := s.setWakeLine 1 w
def faulty (s : State) : State :=
  inGroup 5 (fun r => { r with state := .faulted, faultReason := some .exitFailed }) s
def withClass (c : ClassRec) (s : State) : State :=
  { s with ac := { s.ac with programme := { s.ac.programme with classes := s.ac.programme.classes.set (0 : ClassNo) c } } }
def halted (s : State) : State :=
  { s with
    requesters := s.requesters.set (3 : ReqNo)
      { s.requesters[(3 : ReqNo)] with halted := true, trapped := some ⟨3, 1⟩ } }
def trapped : State := fetching (halted (holding (entry 1 5 .waiting .trap) idle))

def scrubbing : State :=
  let s := withRegion .loseFill (inGroup 5 (fun r => { r with state := .scrubbing }) idle)
  { s with
    scrub := { queue := [5], engine := .outstanding, cursorGroup := some 5, cursorRegion := some 47
               cursorAddr := some 335584768 }
    dp := { s.dp with slots := s.dp.slots.set (0 : SlotNo) (some ⟨.scrub, .write, 16⟩) } }

/-- A forward queue of n transactions. -/
def forwarding (n : Nat) (s : State) : State :=
  { s with dp := { s.dp with forward := (List.range n).map fun i => ⟨15, BitVec.ofNat 8 i⟩ } }

/-- Group 5 ends its wake with entries of requesters 3, 4 and 3 held for it. -/
def threeHeld (n : Nat) : State :=
  forwarding n (holding (entry 3 5 .waiting .order) (holding (entryOf 4 2 5 .waiting .wake)
    (holding (entry 1 5 .waiting .wake) (exiting false false))))

/-- The result and the detail a command in hand has ended with. -/
def ended (i : Instr) (s : State) : Option (Result × BitVec 32) :=
  ((ran i s).cp.inHand.bind InHand.completion).map fun c => (c.result, c.detail)

/-! ## One step of each command -/

theorem test_coldReset : (ran (.coldReset ⟨⟨1, 2, 3⟩, true, Vector.replicate 4 .high⟩) (faulty idle)).groups[(5 : GroupNo)].state
    = .active := by decide +kernel
theorem test_warmReset : (ran (.warmReset ⟨⟨1, 2, 3⟩, true, Vector.replicate 4 .high⟩) idle).groups[(5 : GroupNo)].timer
    = some 4096 := by decide +kernel
theorem test_admission : (ran (.admission [request .write 5]) idle).dp.forward = [⟨3, 7⟩] := by decide +kernel
theorem test_responseTaken :
    let s := withEntry (tracked .write 5 false .answering (some .done)) { idle with
      au := { idle.au with responses := [.tracked ⟨3, 9⟩] } }
    (ran .responseTaken s).outputs = [.response 3 9 .done none] ∧ (ran .responseTaken s).au.tracking = [] := by
  decide +kernel
theorem test_takeReady : (ran .takeReady State.reset).dp.slots[(0 : SlotNo)] = some ⟨.cpWrite, .write, 16⟩ := by
  decide +kernel
theorem test_completion :
    let t := ran (.completion 31 0 .ok none) (inFlight .write 5 false)
    t.au.responses = [.tracked ⟨3, 9⟩] ∧ t.groups[(5 : GroupNo)].inFlight = 0
      ∧ t.ac.counters[(0 : ClassNo)].writeBytes = 16 := by decide +kernel
theorem test_done : (ran (.done 5 .ok) (entering .retain)).groups[(5 : GroupNo)].depth = .retain
    ∧ (ran (.done 5 .ok) (exiting false false)).groups[(5 : GroupNo)].state = .active := by decide +kernel
theorem test_entryTimeout : (ran (.entryTimeout 5) (entering .nap)).groups[(5 : GroupNo)].faultReason
    = some .entryTimeout := by decide +kernel
theorem test_exitTimeout : (ran (.exitTimeout 5) (exiting true false)).outputs = [.exit 5 true] := by decide +kernel
theorem test_startSettleExpiry : (ran (.startSettleExpiry 5) settled).groups[(5 : GroupNo)].timer = some 1024 := by
  decide +kernel
theorem test_tuTick :
    (ran .tuTick (inGroup 5 (fun r => { r with deepest := .off, tNap := 1 }) idle)).outputs = [.enter 5 .nap] := by
  decide +kernel
theorem test_settleExpiry :
    (ran (.settleExpiry 2) (withLine { state := .settling, timer := some 0 } idle)).slu.lines[(2 : LineNo)].state = .on := by
  decide +kernel
theorem test_wakeInputTransition :
    (ran (.wakeInputTransition 1 .high) (withWake { mode := .rise, groups := 0x20, lastLevel := .low } (asleep .nap idle))).outputs
      = [.exit 5 false] := by decide +kernel
theorem test_wakeLineSample :
    (ran (.wakeLineSample 1) (withWake
      { mode := .sampled, groups := 0x20, lastLevel := .high, sampleDue := true } (asleep .nap idle))).wlu[(1 : WakeNo)].armed
      = false := by decide +kernel
theorem test_cmdProducer :
    let t := ran (.cmdProducer 0 1 1 3) idle
    t.cp.producerShadow = 1 ∧ t.cp.state = .fetching ∧ t.dp.forward = [⟨0, 1⟩] := by decide +kernel
theorem test_reportConsumer : (ran (.reportConsumer 0 1 1 3) idle).cp.consumerShadow = 0 := by decide +kernel
theorem test_irqEnable : (ran (.irqEnable 0 1 0xAABBCCDD 5) idle).cp.irqEnable = 0x00BB00DD := by decide +kernel
theorem test_restartRequest : (ran (.restartRequest 0 1 1 15) idle).cp.epoch = 1 := by decide +kernel
theorem test_controlBlockWrite : (ran (blockTest 0x10 1) idle).au.controlDenied = 1
    ∧ (ran (blockTest 0xBF0 1) idle).dp.forward = [⟨0, 0⟩] := by decide +kernel
theorem test_nop : ended (.nop 1) ready = some (.ok, 0) := by decide +kernel
theorem test_setRegion :
    (ran (.setRegion 1 47 1 1 0 81928 4 0 0xF) ready).regions[(47 : RegionNo)] =
      { valid := true, basePage := 81928, pageCount := 4, policy := .loseOk, fill := none, mask := 0xF, readAllowed := true
        writeAllowed := false, lost := false } := by decide +kernel
theorem test_clearRegion : (ran (.clearRegion 1 47) (withRegion .keep ready)).regions[(47 : RegionNo)].valid = false := by
  decide +kernel
theorem test_clearLost : (ran (.clearLost 1 47) (withRegion .keep ready)).regions[(47 : RegionNo)].lost = false := by
  decide +kernel
theorem test_setGroupPolicy : (ran (.setGroupPolicy 1 15 3 1 2 3) ready).groups[(15 : GroupNo)].tOff = 3 := by
  decide +kernel
theorem test_forceDepth : ended (.forceDepth 1 5 2) ready = some (.accepted, 5)
    ∧ (ran (.forceDepth 1 5 2) ready).outputs = [.enter 5 .retain] := by decide +kernel
theorem test_wakeGroups : ended (.wakeGroups 1 0xFFFF) (asleep .off ready) = some (.ok, 0x20) := by decide +kernel
theorem test_recoverGroup : (ran (.recoverGroup 1 5) (faulty ready)).outputs = [.exit 5 true] := by decide +kernel
theorem test_setLine : (ran (.setLine 1 7 2 1 0x20 4095) (asleep .retain ready)).slu.lines[(7 : LineNo)].state = .off := by
  decide +kernel
theorem test_forceLine : ended (.forceLine 1 2 1) (withLine { deps := 0x20, state := .off } (asleep .off ready))
    = some (.ok, 1) := by decide +kernel
theorem test_setWakeLine : (ran (.setWakeLine 1 3 4 15 0xF) ready).wlu[(3 : WakeNo)].mode = .sampled := by decide +kernel
theorem test_setElement :
    (ran (.setElement 1 23 1 1 0 5 6 0 (Vector.replicate 8 0) (Vector.replicate 8 0) 8) ready).ac.programme.elements[(23 : ElemNo)]
      = { enabled := true, mask := 8, kindTest := .write, window := some (5, 6), dataTest := none } := by decide +kernel
theorem test_setClass :
    (ran (.setClass 1 7 0 1 1 2 ⟨1, 3, 1, 4, 1⟩ ⟨0, 0, 0, 0, 0⟩ ⟨0, 0, 0, 0, 0⟩ ⟨0, 0, 0, 0, 0⟩) ready).ac.programme.classes[(7 : ClassNo)].terms[0]
      = { enabled := true, a := 3, b := some 4, bNegated := true } := by decide +kernel
theorem test_setRequester : (ran (.setRequester 1 15 0 1 32 1) ready).requesters[(15 : ReqNo)].quota = 32 := by
  decide +kernel
theorem test_releaseTrap : (ran (.releaseTrap 1 3 1) trapped).au.responses = [.tracked ⟨3, 1⟩]
    ∧ (ran (.releaseTrap 1 3 0) trapped).dp.forward = [⟨3, 1⟩] := by decide +kernel
/-- The entries of two requesters that a group's ACTIVE releases go in admission order, not requester by requester. -/
theorem test_release_keeps_admission_order :
    (ran (.done 5 .ok) (threeHeld 12)).dp.forward.drop 12 = [⟨3, 1⟩, ⟨4, 2⟩, ⟨3, 3⟩]
      ∧ (ran (.done 5 .ok) (threeHeld 14)).hold.entries = [entry 3 5 .ready .order] := by decide +kernel
theorem test_setQueueLimits : ended (.setQueueLimits 1 2 1) ready = some (.ok, 0) := by decide +kernel
theorem test_setTimeouts : (ran (.setTimeouts 1 9 8 7 6) ready).timeouts = ⟨9, 8, 7, 6⟩ := by decide +kernel
theorem test_snapshot : (ran (.snapshot 1 1) ready).cp.writeList.map CpWrite.kind
    = [.mirror, .payload false, .payload false, .payload false, .payload true] := by decide +kernel

/-! ## Each obligation's hypotheses are met: a state for each clause -/

def lawful : State :=
  (holding (entry 1 5 .waiting .wake) (asleep .off (withLine { deps := 0x20, state := .off }
    (withRegion .loseOk idle)))).setPending [.takeReady]

theorem witness_laws : lawful.controlAwake ∧ lawful.forwardFits ∧ lawful.holdFits ∧ lawful.trackingFits ∧ lawful.tagsDiffer
    ∧ lawful.suppliesHold ∧ lawful.suppliesSleep ∧ lawful.controlLeft ∧ lawful.ringsFit ∧ lawful.placesAgree ∧ lawful.heldCountsAgree := by
  unfold State.controlAwake State.forwardFits State.holdFits State.trackingFits State.tagsDiffer State.suppliesHold
    State.suppliesSleep State.controlLeft State.ringsFit State.placesAgree State.heldCountsAgree
  decide +kernel

theorem witness_regionsApart : lawful.regionsApart := by
  unfold State.regionsApart
  decide +kernel

theorem witness_ResetsGiveTheirValues :
    (statusImage false .idle idle.groups (lineCodes idle.slu.lines)).length = 48 := by decide +kernel

theorem witness_laws_step : ∃ t : State, step lawful = .next t := ⟨_, rfl⟩

theorem witness_viewsAgree : lawful.viewsAgree ∧ lawful.keepStays := by
  unfold State.viewsAgree State.keepStays
  decide +kernel

theorem witness_fills : scrubbing.fills 5 47 ∧ ¬ lawful.fills 5 47 := by
  unfold State.fills
  decide +kernel

/-- The scrub queue with a group in it, and without. -/
theorem witness_scrubAgrees : scrubbing.scrubAgrees ∧ lawful.scrubAgrees := by
  refine ⟨⟨by decide +kernel, by decide +kernel, fun g h => ⟨47, ?_⟩, by decide +kernel, by decide +kernel,
    ⟨⟨47, rfl, witness_fills.1⟩, rfl⟩, by decide +kernel, by decide +kernel⟩,
    by decide +kernel, by decide +kernel, (fun g h => nomatch h), by decide +kernel, by decide +kernel, ⟨rfl, rfl⟩,
    by decide +kernel, by decide +kernel⟩
  cases List.mem_singleton.mp h
  exact witness_fills.1

/-- With a held entry; with a transaction downstream. -/
theorem witness_flightsAgree : ∀ s ∈ [lawful, inFlight .write 5 false], s.flightsAgree ∧ s.readyInOrder := by
  unfold State.flightsAgree State.readyInOrder
  decide +kernel

/-- An ORDERED requester's oldest held entry is READY, and the next is not. -/
theorem witness_readyInOrder :
    (holding (entry 2 5 .waiting .order) (holding (entry 1 5 .ready .wake) idle)).readyInOrder
      ∧ ¬ (holding (entry 2 5 .ready .order) (holding (entry 1 5 .ready .wake) idle)).readyInOrder := by
  unfold State.readyInOrder
  decide +kernel

def sending : State := { State.reset with dp := { State.reset.dp with takeReady := true } }
def fetchOffer : State := { idle with dp := { idle.dp with takeReady := true, fetchPlace := some (beat .read 0) } }
def scrubOffers : State := { idle with dp := { idle.dp with takeReady := true, scrubPlace := some (beat .write 5) } }
def fullSlots : State := { sending with dp := { sending.dp with slots := Vector.replicate 32 (some ⟨.cpWrite, .write, 1⟩) } }

theorem witness_EndOfEventSendsOneTransaction :
    (idle.dp.takeReady = false ∧ fullSlots.dp.freeSlot = none)
      ∧ (sending.dp.takeReady = true ∧ sending.dp.freeSlot = some 0 ∧ sending.wantsWrite = false
        ∧ sending.dp.writePlace.isSome = true ∧ sending.cp.postsNow = false ∧ sending.dp.forward = [])
      ∧ (fetchOffer.dp.freeSlot = some 0 ∧ fetchOffer.wantsWrite = false ∧ fetchOffer.dp.writePlace = none
        ∧ fetchOffer.dp.fetchPlace = some (beat .read 0) ∧ fetchOffer.dp.turn = .internal)
      ∧ (scrubOffers.dp.freeSlot = some 0 ∧ scrubOffers.wantsWrite = false ∧ scrubOffers.dp.writePlace = none
        ∧ scrubOffers.dp.fetchPlace = none ∧ scrubOffers.dp.scrubPlace = some (beat .write 5))
      ∧ (queued.dp.takeReady = true ∧ queued.dp.freeSlot = some 0 ∧ queued.wantsWrite = false
        ∧ queued.dp.forward = [⟨3, 9⟩] ∧ queued.track? ⟨3, 9⟩ = some (tracked .write 5 false .queued none)
        ∧ queued.dp.hasOffer = false ∧ queued.hold.oldestReady? = none) := by decide +kernel

/-- A mirror write waits to be set; the write of the completion being posted is set in its place. -/
def wanting : State :=
  { sending with
    cp := { sending.cp with writeList := [{ kind := .mirror, tx := none }] }, dp := { sending.dp with writePlace := none } }
def posting : State :=
  { ready with
    cp := { ready.cp with state := .posting, writeList := [{ kind := .publish 1 true, tx := some (beat .write 0) }] }
    dp := { ready.dp with takeReady := true, writePlace := some (beat .write 0) } }

/-- The forward queue holds n transactions, and the entries are held, READY. -/
def readyBehind (n : Nat) (es : List HoldEntry) : State :=
  let s := es.foldl (fun s e => holding e s) idle
  withEntry (tracked .write 5 false .queued none)
    { s with dp := { s.dp with
      takeReady := true, turn := .forward, forward := ⟨3, 9⟩ :: (List.range (n - 1)).map fun i => ⟨15, BitVec.ofNat 8 i⟩ } }

theorem witness_EndOfEvent_writes :
    (wanting.wantsWrite = true ∧ wanting.dp.takeReady = true ∧ wanting.dp.freeSlot = some 0 ∧ wanting.dp.forward = []
        ∧ wanting.cp.writeList.head?.map CpWrite.kind = some .mirror)
      ∧ (posting.cp.postsNow = true ∧ posting.wantsWrite = false ∧ posting.dp.takeReady = true
        ∧ posting.dp.freeSlot = some 0 ∧ posting.dp.forward = [] ∧ posting.dp.writePlace = some (beat .write 0)
        ∧ posting.cp.marks.head?.map Mark.value = some (posting.cp.cmdConsumer + 1))
      ∧ sending.cp.writeList ≠ [] ∧ idle.cp.writeList = [] := by decide +kernel

/-- One READY entry with a place free after the send; two with one place free. -/
theorem witness_EndOfEvent_moves :
    (let s := readyBehind 16 [entry 1 5 .ready .wake]
     s.hold.entries = [entry 1 5 .ready .wake] ∧ s.dp.forward.length = 16 ∧ s.dp.turn = .forward ∧ s.dp.freeSlot = some 0
      ∧ s.track? ⟨3, 9⟩ = some (tracked .write 5 false .queued none))
      ∧ (let s := readyBehind 16 [entry 1 5 .ready .wake, entryOf 4 2 5 .ready .wake]
        s.hold.entries = [entry 1 5 .ready .wake, entryOf 4 2 5 .ready .wake] ∧ s.dp.forward.tail.length = 15
        ∧ s.dp.takeReady = true ∧ s.track? ⟨3, 9⟩ = some (tracked .write 5 false .queued none)) := by decide +kernel

def answering : State :=
  withEntry (tracked .write 5 false .answering (some .done))
    { idle with au := { idle.au with responses := [.tracked ⟨3, 9⟩] } }
def protocolAnswer : State :=
  { idle with au := { idle.au with responses := [.protocol], protocolPlace := some ⟨3, 9⟩ } }

theorem witness_ResponsesAndReadinessAreTaken :
    idle.au.responses = []
      ∧ (protocolAnswer.au.responses = [.protocol] ∧ protocolAnswer.au.protocolPlace = some ⟨3, 9⟩)
      ∧ (answering.au.responses = [.tracked ⟨3, 9⟩]
        ∧ answering.track? ⟨3, 9⟩ = some (tracked .write 5 false .answering (some .done))) := by decide +kernel

theorem witness_MismatchedCompletionIsDiscarded :
    idle.dp.slots[(0 : SlotNo)] = none ∧ (255 : BitVec 8) ≠ idle.dp.generation
      ∧ (inFlight .write 5 false).dp.slots[(31 : SlotNo)] = some ⟨.forward ⟨3, 9⟩ (some 5), .write, 1⟩
      ∧ (inFlight .read 5 false).dp.slots[(31 : SlotNo)] = some ⟨.forward ⟨3, 9⟩ (some 5), .read, 1⟩
      ∧ (List.replicate 15 (0 : Byte)).length ≠ 16 * 1 := by decide +kernel

/-- Group 5 drains, with two transactions in flight. -/
def stillDraining (k : Kind) : State :=
  inGroup 5 (fun r => { r with state := .draining, target := some .off, inFlight := 2 }) (inFlight k 5 false)

/-- The hypotheses on the transaction downstream, for a WRITE and for a READ with its 16 bytes. -/
theorem witness_ForwardedCompletionAnswers : ∀ k : Kind, k = .read ∨ k = .write →
    (inFlight k 5 false).dp.slots[(31 : SlotNo)]
        = some { source := .forward (tracked k 5 false .inFlight none).ref (some 5), kind := k
                 length := (tracked k 5 false .inFlight none).tx.length }
      ∧ (inFlight k 5 false).track? ⟨3, 9⟩ = some (tracked k 5 false .inFlight none)
      ∧ (tracked k 5 false .inFlight none).control = false ∧ (tracked k 5 false .inFlight none).cls = some 0
      ∧ (inFlight k 5 false).groups[(5 : GroupNo)].state ≠ .draining
      ∧ ((stillDraining k).dp.slots = (inFlight k 5 false).dp.slots ∧ (stillDraining k).au = (inFlight k 5 false).au
        ∧ (stillDraining k).groups[(5 : GroupNo)].state = .draining ∧ (stillDraining k).groups[(5 : GroupNo)].inFlight = 2)
      ∧ (List.replicate 16 (0 : Byte)).length = 16 * (tracked k 5 false .inFlight none).tx.length := by
  intro k h; rcases h with rfl | rfl <;> decide +kernel

def lastOne (k : Kind) : State :=
  inGroup 5 (fun r => { r with state := .draining, target := some .off, forced := true }) (inFlight k 5 false)

theorem witness_LastCompletionEndsTheDrain : ∀ k : Kind, k = .read ∨ k = .write →
    (lastOne k).dp.slots[(31 : SlotNo)] = some ⟨.forward ⟨3, 9⟩ (some 5), k, 1⟩
      ∧ (lastOne k).track? ⟨3, 9⟩ = some (tracked k 5 false .inFlight none)
      ∧ (lastOne k).groups[(5 : GroupNo)].state = .draining ∧ (lastOne k).groups[(5 : GroupNo)].target = some .off
      ∧ (lastOne k).groups[(5 : GroupNo)].inFlight = 1
      ∧ (tracked k 5 false .inFlight none).cls = some 0 ∧ (tracked k 5 false .inFlight none).control = false := by
  intro k h; rcases h with rfl | rfl <;> decide +kernel

theorem witness_ControlAccessCompletes : ∀ k : Kind, k = .read ∨ k = .write →
    (inFlight k 0 true).dp.slots[(31 : SlotNo)] = some ⟨.forward ⟨3, 9⟩ (some 0), k, 1⟩
      ∧ (inFlight k 0 true).track? ⟨3, 9⟩ = some (tracked k 0 true .inFlight none)
      ∧ (tracked k 0 true .inFlight none).control = true ∧ (tracked k 0 true .inFlight none).cls = none
      ∧ (inFlight k 0 true).groups[(0 : GroupNo)].state = .active := by
  intro k h; rcases h with rfl | rfl <;> decide +kernel

/-- A fetch waits for the control write that is downstream. -/
def barrierEnds : State :=
  { inFlight .write 0 true with cp :=
    { ready.cp with outstanding := [5], marks := [{ value := 0x78, requester := 9, seq := 6 }] } }

theorem witness_ControlAccessCompletes_fetch :
    barrierEnds.cp.barrierMet 6 = false ∧ barrierEnds.dp.fetchPlace = none
      ∧ (ran (.completion 31 0 .ok none) barrierEnds).dp.fetchPlace = some (ready.cp.fetchTx idle.straps) := by
  decide +kernel

/-- A CP write of a kind is downstream in slot 0. -/
def cpWriting (k : WriteKind) (again : Bool) : State :=
  { idle with
    cp := { idle.cp with writeList := [{ kind := k, tx := none }], reMirror := again }
    dp := { idle.dp with slots := idle.dp.slots.set (0 : SlotNo) (some ⟨.cpWrite, .write, 16⟩) } }

/-- A CP write that has left the write list is downstream. -/
def orphaned : State := { cpWriting .mirror false with cp := { idle.cp with orphan := true } }

theorem witness_CpTransactionsComplete :
    (cpWriting .mirror true).dp.slots[(0 : SlotNo)] = some ⟨.cpWrite, .write, 16⟩ ∧ (cpWriting .mirror true).cp.orphan = false
      ∧ (cpWriting .mirror true).cp.reMirror = true ∧ (cpWriting .mirror false).cp.reMirror = false
      ∧ ([.publish 7 true, .initial 0, .initial 2, .initial 3, .restart 0 7, .restart 3 7, .record, .cmdConsumer, .mirror,
            .payload false, .payload true] : List WriteKind).all
          (fun k => (cpWriting k false).cp.writeList == [{ kind := k, tx := none }]) = true
      ∧ (cpWriting (.payload true) false).cp.state ≠ .executing
      ∧ (orphaned.dp.slots[(0 : SlotNo)] = some ⟨.cpWrite, .write, 16⟩ ∧ orphaned.cp.orphan = true)
      ∧ ready.dp.slots[(4 : SlotNo)] = some ⟨.cpFetch, .read, 4⟩ := by decide +kernel

theorem witness_ScrubWriteCompletes :
    scrubbing.dp.slots[(0 : SlotNo)] = some ⟨.scrub, .write, 16⟩ ∧ scrubbing.scrub.cursorGroup = some 5
      ∧ scrubbing.scrub.cursorRegion = some 47 ∧ scrubbing.scrub.cursorAddr = some 335584768
      ∧ scrubbing.regions[(47 : RegionNo)].fill = some 3
      ∧ (335584768 : Addr).toNat + 256 < (scrubbing.regions[(47 : RegionNo)].basePage
          + scrubbing.regions[(47 : RegionNo)].pageCount) * 4096
      ∧ scrubbing.scrub.queue = [5] ∧ scrubbing.hold.entries = [] := by decide +kernel

/-- The last 256 bytes of region 47 are downstream, with group 6 behind in the scrub queue and its region 4; or those of a
region before it in the group. -/
def lastBurst (i : RegionNo) : State :=
  let r := scrubbing.regions[(47 : RegionNo)]
  { (scrubbing.setRegion 4 { r with basePage := 98304 }).setRegion 3 { r with valid := decide (i = 3), basePage := 81940 } with
    groups := scrubbing.groups.set (6 : GroupNo) { scrubbing.groups[(6 : GroupNo)] with state := .scrubbing }
    scrub := { scrubbing.scrub with
      queue := [5, 6], cursorRegion := some i, cursorAddr := some (if i = 3 then 335634176 else 335585024) } }

theorem witness_ScrubWriteCompletes_last :
    (¬ (335585024 : Addr).toNat + 256 < (81928 + 2) * 4096 ∧ (lastBurst 47).scrub.queue = [5, 6]
        ∧ (∀ x : RegionNo, 47 < x → ¬ (lastBurst 47).fills 5 x)
        ∧ (lastBurst 47).fills 6 4 ∧ (∀ x : RegionNo, x < 4 → ¬ (lastBurst 47).fills 6 x)
        ∧ (lastBurst 47).regions[(4 : RegionNo)].fill = some 3)
      ∧ (¬ (335634176 : Addr).toNat + 256 < (81940 + 2) * 4096 ∧ (lastBurst 3).fills 5 47
        ∧ (∀ x : RegionNo, 3 < x → x < 47 → ¬ (lastBurst 3).fills 5 x)
        ∧ (lastBurst 3).regions[(3 : RegionNo)].fill = some 3 ∧ (lastBurst 3).regions[(47 : RegionNo)].fill = some 3)
      ∧ ∀ s ∈ [lastBurst 3, lastBurst 47], s.dp.slots[(0 : SlotNo)] = some ⟨.scrub, .write, 16⟩ ∧ s.hold.entries = [] := by
  unfold State.fills
  decide +kernel

/-! ### Admission -/

def slowQuota : State :=
  { idle with requesters := idle.requesters.map fun r => { r with outstanding := 16 } }
def tagInUse : State := withEntry { tracked .write 5 false .queued none with ref := ⟨3, 7⟩ } idle
def shut : State := { idle with requesters := idle.requesters.map fun r => { r with enabled := false } }
def badAt (a : Addr) (n : Nat) : Request := { request .read 5 with address := a, length := n }

theorem witness_RefusedRequestsAreAnswered :
    idle.nothingWaits ∧ (slowQuota.nothingWaits ∧ slowQuota.laneOf (request .write 5) ≠ .isOpen)
      ∧ (idle.laneOf (badAt 335577096 1) = .isOpen ∧ (335577096 : Addr).toNat % 16 ≠ 0)
      ∧ (idle.laneOf (badAt 335577088 0) = .isOpen ∧ idle.laneOf (badAt 335577088 17) = .isOpen)
      ∧ (idle.laneOf (badAt 335577072 2) = .isOpen ∧ 4096 < (335577072 : Addr).toNat % 4096 + 16 * 2)
      ∧ (tagInUse.nothingWaits ∧ tagInUse.laneOf (request .write 5) = .isOpen
        ∧ ∃ e ∈ tagInUse.au.tracking, e.ref = (request .write 5).ref)
      ∧ (idle.protocolOk (badAt 4294967296 1) = true ∧ idle.laneOf (badAt 4294967296 1) = .isOpen
        ∧ (badAt 4294967296 1).isControl idle.straps = false ∧ idle.groupOf 4294967296 = none)
      ∧ (shut.nothingWaits ∧ shut.protocolOk (request .read 5) = true ∧ shut.laneOf (request .read 5) = .isOpen
        ∧ shut.requesters[(3 : ReqNo)].enabled = false)
      ∧ (withRegion .keep idle).regionRefuses { request .write 5 with address := 335577088 } = true := by
  unfold State.nothingWaits
  decide +kernel

/-- A READ of the control block. -/
def controlRead (q : ReqNo) : Request := ⟨q, 7, .read, controlAddr idle.straps 0x40, 3, [], []⟩

/-- Requester 3's control lane and its memory lane hold requests, and so does requester 4's memory lane. -/
def threeWait : State :=
  { idle with up :=
    { ((idle.up.withPlace .control 3 (some (controlRead 3))).withPlace .memory 3 (some (request .write 5))).withPlace
        .memory 4 (some { request .read 5 with requester := 4 }) with next := 2 } }

theorem witness_RefusedRequestsAreAnswered_control :
    shut.nothingWaits ∧ shut.laneOf (controlRead 3) = .isOpen ∧ shut.protocolOk (controlRead 3) = true
      ∧ (controlRead 3).isControl shut.straps = true ∧ shut.requesters[(3 : ReqNo)].enabled = false := by
  unfold State.nothingWaits
  decide +kernel

/-- The first acceptable request in rotating order from requester 2 is in the control lane of requester 3; without that, in
its memory lane. -/
theorem witness_RefusedRequestsAreAnswered_rotation :
    (threeWait.up.next + 1 = 3 ∧ threeWait.up.place .control 3 = some (controlRead 3)
        ∧ threeWait.laneOf (controlRead 3) = .isOpen
        ∧ (∀ j : ReqNo, j < 1 → threeWait.up.place .control (threeWait.up.next + j) = none
          ∧ threeWait.up.place .memory (threeWait.up.next + j) = none))
      ∧ (threeWait.up.place .memory 3 = some (request .write 5) ∧ threeWait.laneOf (request .write 5) = .isOpen
        ∧ (request .write 5).isControl threeWait.straps = false)
      ∧ (∀ q : ReqNo, idle.up.place .control q = none ∧ idle.up.place .memory q = none)
      ∧ (∀ q : ReqNo, ∀ r : Request, idle.up.place .control q ≠ some r ∨ ¬ idle.laneOf r = .isOpen) := by
  refine ⟨by decide +kernel, by decide +kernel, by decide +kernel, fun q r => Or.inl ?_⟩
  have h : ∀ q : ReqNo, idle.up.place .control q = none := by decide +kernel
  rw [h q]
  exact fun h' => nomatch h'

/-- Each condition of the two lanes, unmet first in its place, and met. -/
theorem witness_RefusedRequestsAreAnswered_lanes :
    let r := request .write 5
    let w := { controlRead 0 with kind := .write }
    let withHold := fun (b : Bool) (es : List HoldEntry) =>
      ({ idle with hold := { idle.hold with backpressure := b, entries := es } } : State)
    let crowded := fun (n : Nat) (control : Bool) =>
      ({ idle with au := { idle.au with tracking := List.replicate n (tracked .write 5 control .queued none) } } : State)
    r.isControl idle.straps = false ∧ w.isControl idle.straps = true
      ∧ protocolAnswer.laneOf r = .stalled .protocolPlace ∧ protocolAnswer.laneOf w = .stalled .protocolPlace
      ∧ (crowded 124 false).laneOf r = .stalled .trackingFull ∧ (crowded 123 false).laneOf r = .isOpen
      ∧ (crowded 127 true).laneOf r = .isOpen ∧ (crowded 128 true).laneOf w = .stalled .trackingFull
      ∧ (crowded 124 false).laneOf w = .isOpen
      ∧ (forwarding 16 idle).laneOf w = .stalled .forwardRoom ∧ (forwarding 15 idle).laneOf w = .isOpen
      ∧ (forwarding 15 (withHold false [entry 1 5 .ready .wake])).laneOf r = .stalled .forwardRoom
      ∧ (forwarding 14 (withHold false [entry 1 5 .ready .wake])).laneOf r = .isOpen
      ∧ (withHold true []).laneOf r = .stalled .backpressure ∧ slowQuota.laneOf r = .stalled .quota
      ∧ State.reset.laneOf w = .stalled .headerPending ∧ State.reset.laneOf (controlRead 0) = .isOpen := by decide +kernel

/-- The first and the last page of a group, of installed memory, and of the control block, with the largest groups. -/
theorem test_addresses :
    let p : Straps := ⟨7, 15, 0⟩
    groupOfPage p 4194303 = some 15 ∧ groupOfPage p 4194304 = none ∧ groupOfPage p 262143 = some 0
      ∧ groupOfPage p 262144 = some 1 ∧ controlPage p = 3932160 ∧ groupOfPage ⟨0, 0, 0⟩ 262143 = some 15
      ∧ groupOfPage ⟨0, 0, 0⟩ 262144 = none ∧ isControlPage p 3932161 = true ∧ isControlPage p 3932162 = false := by
  decide +kernel

theorem witness_lookup :
    (withRegion .keep idle).lookup 81928 = some 47 ∧ (withRegion .keep idle).lookup 81929 = some 47
      ∧ (withRegion .keep idle).lookup 81927 = none ∧ (withRegion .keep idle).lookup 81930 = none := by decide +kernel

def lostPage : State :=
  (withRegion .loseOk idle).setRegion 47 { (withRegion .loseOk idle).regions[(47 : RegionNo)] with basePage := 81928, mask := 0xFFFF }
def noWake : State := withClass { wake := false } (asleep .off idle)

theorem witness_AdmissionDecisionFollowsItsTable :
    (halted idle).requesters[(3 : ReqNo)].halted = true
      ∧ (withClass { trap := true } idle).ac.programme.classes[(0 : ClassNo)].trap = true
      ∧ (faulty idle).groups[(5 : GroupNo)].state = .faulted
      ∧ (0 < (holding (entry 1 5 .waiting .wake) idle).requesters[(3 : ReqNo)].held
        ∧ idle.requesters[(3 : ReqNo)].mode = .ordered)
      ∧ idle.groups[(5 : GroupNo)].state = .active
      ∧ (asleep .nap idle).ac.programme.classes[(0 : ClassNo)].wake = true
      ∧ (withClass { wake := false } (asleep .nap idle)).ac.programme.classes[(0 : ClassNo)].wake = false := by
  decide +kernel

/-- A held WAKE or ORDER entry of an ACTIVE group is due, also behind another of a RELAXED requester; an ORDER entry of a group
asleep is due, a WAKE entry of one is not. -/
theorem witness_AdmissionDecisionFollowsItsTable_due :
    let e := entry 1 5 .waiting .wake
    let o := entry 2 5 .waiting .order
    let relaxed := fun s : State =>
      ({ s with requesters := s.requesters.map fun r => { r with mode := .relaxed } } : State)
    (holding e idle).due e = true ∧ (holding e idle).hold.find? e.ref = some e
      ∧ (holding e (asleep .nap idle)).due e = false ∧ (holding o (asleep .nap idle)).due o = true
      ∧ (holding o (holding e idle)).due o = false ∧ (relaxed (holding o (holding e idle))).due o = true
      ∧ (holding (entry 3 5 .waiting .halt) idle).due (entry 3 5 .waiting .halt) = false := by decide +kernel

/-- Each row of the re-decision finds a state, the rows before it not met: a halt, with row 1 applied; an older entry; FAULTED;
a lost page; ACTIVE; asleep, with WAKE and without. -/
theorem witness_AdmissionDecisionFollowsItsTable_rows :
    let e := entry 1 5 .waiting .wake
    let o := entry 2 5 .waiting .order
    (halted (holding e idle)).requesters[(3 : ReqNo)].halted = true
      ∧ ((holding o (holding e (asleep .nap idle))).hold.isOldest o = false
        ∧ idle.requesters[(3 : ReqNo)].mode = .ordered ∧ idle.requesters[(3 : ReqNo)].halted = false)
      ∧ ((holding e (faulty idle)).hold.isOldest e = true
        ∧ (holding e (faulty idle)).groups[(5 : GroupNo)].state = .faulted)
      ∧ (lostPage.lookup (pageOf (beat .read 5).address) = some 47 ∧ lostPage.regions[(47 : RegionNo)].lost = true
        ∧ lostPage.groups[(5 : GroupNo)].state = .active)
      ∧ (idle.groups[(5 : GroupNo)].state = .active ∧ e.tx.kind ≠ .read)
      ∧ ((holding e (asleep .nap idle)).groups[(5 : GroupNo)].state = .asleep
        ∧ idle.ac.programme.classes[(0 : ClassNo)].wake = true)
      ∧ (noWake.groups[(5 : GroupNo)].state = .asleep ∧ noWake.ac.programme.classes[(0 : ClassNo)].wake = false) := by
  decide +kernel

def draining (forced : Bool) : State :=
  inGroup 5 (fun r => { r with state := .draining, forced := forced, target := some .nap, inFlight := 1 }) idle

theorem witness_AdmissionForwards : ∀ s ∈ [idle, draining false],
    s.memoryAdmitted (request .write 5) 5 0 ∧ s.admissionDecision 3 5 0 (request .write 5).tx = .forward
      ∧ (s.groups[(5 : GroupNo)].state = .draining → ∀ e ∈ s.hold.entries, e.group ≠ 5) := by
  unfold State.memoryAdmitted State.nothingWaits
  decide +kernel

theorem witness_AdmissionForwards_controlRead :
    idle.nothingWaits ∧ (controlRead 3).isControl idle.straps = true ∧ idle.laneOf (controlRead 3) = .isOpen
      ∧ idle.protocolOk (controlRead 3) = true ∧ idle.requesters[(3 : ReqNo)].enabled = true
      ∧ idle.requesters[(3 : ReqNo)].control = false := by
  unfold State.nothingWaits
  decide +kernel

/-- Group 5 is in an unforced drain. -/
def drained (s : State) : State := inGroup 5 (fun r => { r with state := .draining, target := some .nap, inFlight := 1 }) s

theorem witness_AdmissionAnswersAtOnce :
    (noWake.memoryAdmitted (request .write 5) 5 0 ∧ noWake.admissionDecision 3 5 0 (request .write 5).tx = .answer .asleep)
      ∧ ((faulty idle).memoryAdmitted (request .write 5) 5 0
        ∧ (faulty idle).admissionDecision 3 5 0 (request .write 5).tx = .answer .failed)
      ∧ (lostPage.memoryAdmitted (request .read 5) 5 0
        ∧ lostPage.admissionDecision 3 5 0 (request .read 5).tx = .answer .lost)
      ∧ (∀ s ∈ [noWake, faulty idle, lostPage],
          ¬ (s.groups[(5 : GroupNo)].state = .draining ∧ s.groups[(5 : GroupNo)].forced = false))
      ∧ ((drained lostPage).memoryAdmitted (request .read 5) 5 0
        ∧ (drained lostPage).admissionDecision 3 5 0 (request .read 5).tx = .answer .lost
        ∧ (drained lostPage).groups[(5 : GroupNo)].state = .draining
        ∧ (drained lostPage).groups[(5 : GroupNo)].forced = false ∧ (drained lostPage).hold.entries = []) := by
  unfold State.memoryAdmitted State.nothingWaits
  decide +kernel

/-- An entry of requester 3 for another group is held. -/
def behind : State := holding (entry 1 6 .waiting .wake) (asleep .nap idle)

theorem witness_AdmissionHolds : ∀ c ∈ [(asleep .off idle, HoldReason.wake, true), (draining true, .wake, true),
    (entering .nap, .wake, true), (exiting true false, .wake, true), (behind, .order, true),
    (withClass { trap := true } idle, .trap, false), (halted idle, .halt, false)],
    c.1.memoryAdmitted (request .write 5) 5 0
      ∧ c.1.admissionDecision 3 5 0 (request .write 5).tx = .hold c.2.1 c.2.2
      ∧ ¬ (c.1.groups[(5 : GroupNo)].state = .draining ∧ c.1.groups[(5 : GroupNo)].forced = false)
      ∧ c.1.controlAwake ∧ c.1.hold.entries.all (fun e => e.ref != (request .write 5).ref) = true := by
  unfold State.memoryAdmitted State.nothingWaits State.controlAwake
  decide +kernel

/-- In an unforced drain, for the three reasons: a halt, a trap, and an older entry of the requester for another group. -/
theorem witness_AdmissionHolds_drain : ∀ c ∈ [(drained (halted idle), HoldReason.halt, false),
    (drained (withClass { trap := true } idle), .trap, false), (drained (holding (entry 1 6 .waiting .wake) idle), .order, true)],
    c.1.memoryAdmitted (request .write 5) 5 0
      ∧ c.1.admissionDecision 3 5 0 (request .write 5).tx = .hold c.2.1 c.2.2
      ∧ (c.1.groups[(5 : GroupNo)].state = .draining ∧ c.1.groups[(5 : GroupNo)].forced = false)
      ∧ (∀ e ∈ c.1.hold.entries, e.group ≠ 5)
      ∧ (c.2.1 = .order → ∃ e ∈ c.1.hold.entries, e.requester = (request .write 5).requester)
      ∧ c.1.controlAwake ∧ c.1.hold.entries.all (fun e => e.ref != (request .write 5).ref) = true := by
  unfold State.memoryAdmitted State.nothingWaits State.controlAwake
  decide +kernel

/-- The entry reaches the high watermark of 2, and misses one of 3. -/
theorem witness_AdmissionHolds_watermark : ∀ n ∈ [2, 3],
    let s := { behind with hold := { behind.hold with high := n, low := 1 } }
    s.memoryAdmitted (request .write 5) 5 0 ∧ s.admissionDecision 3 5 0 (request .write 5).tx = .hold .order true
      ∧ s.controlAwake ∧ s.hold.entries.length + 1 = 2 := by
  unfold State.memoryAdmitted State.nothingWaits State.controlAwake
  decide +kernel

/-- An element with a window and a data test, for its first and last page. -/
def element : Element :=
  { enabled := true, mask := 8, kindTest := .write, window := some (81928, 81928)
    dataTest := some (Vector.replicate 8 0x5A, Vector.replicate 8 0xFF) }

theorem witness_ClassIsTheLowestTrueOne :
    element.hits 3 (beat .write 5) = true ∧ element.hits 3 (beat .read 5) = false ∧ element.hits 2 (beat .write 5) = false
      ∧ element.hits 3 (beat .write 6) = false
      ∧ element.hits 3 { beat .write 5 with enables := List.replicate 7 true } = false := by decide +kernel

/-! ### Control-block writes -/

theorem witness_controlOpen : idle.controlOpen 0 1 := by
  unfold State.controlOpen State.nothingWaits
  decide +kernel

/-- Values at the bounds: 33 beyond the consumer breaks the protocol, 0 is the shadow's own, 32 is new. -/
theorem witness_CommandProducerWrite :
    32 < ((33 : BitVec 16) - idle.cp.cmdConsumer).toNat ∧ (0 : BitVec 16) = idle.cp.producerShadow
      ∧ ((32 : BitVec 16) - idle.cp.cmdConsumer).toNat = 32 ∧ idle.cp.state = .idle ∧ idle.cp.marks = []
      ∧ (ready.controlOpen 0 1 ∧ ready.cp.state ≠ .idle) := by
  unfold State.controlOpen State.nothingWaits
  decide +kernel

/-- A control write older than the new mark is outstanding, and a command is pending already: the fetch waits. -/
def barred : State :=
  { idle with cp := { idle.cp with producerShadow := 1, marks := [{ value := 1, requester := 4, seq := 9 }], outstanding := [8] } }

theorem witness_CommandProducerWrite_barrier :
    barred.controlOpen 0 1 ∧ barred.cp.state = .idle ∧ barred.cp.marks ≠ []
      ∧ barred.cp.covering = some { value := 1, requester := 4, seq := 9 } ∧ barred.cp.barrierMet 9 = false
      ∧ barred.cp.barrierMet 8 = true ∧ seqLess 0xFFFFFFFF 0 = true ∧ seqLess 0 0x80000000 = false
      ∧ seqLess 0 0x7FFFFFFF = true := by
  unfold State.controlOpen State.nothingWaits
  decide +kernel

/-- Every report slot is taken, and a completion waits for one. -/
def waitingForSpace : State :=
  { idle with
    cp := { idle.cp with
      reportProducer := 64, published := 64, state := .waitSpace, producerShadow := 0x78, cmdConsumer := 0x77
      inHand := some { hand with completion := some (hand.report 1 .nop .ok 0 0) } } }

theorem witness_ReportAndInterruptWordWrites :
    (waitingForSpace.controlOpen 0 1 ∧ waitingForSpace.cp.state = .waitSpace
        ∧ (waitingForSpace.cp.reportProducer - 1).toNat < 64
        ∧ waitingForSpace.cp.inHand = some { hand with completion := some (hand.report 1 .nop .ok 0 0) })
      ∧ (waitingForSpace.cp.reportProducer - waitingForSpace.cp.consumerShadow).toNat
          < ((65 : BitVec 16) - waitingForSpace.cp.consumerShadow).toNat
      ∧ (idle.cp.lostSet = 0 ∧ idle.cp.state ≠ .waitSpace) := by
  unfold State.controlOpen State.nothingWaits
  decide +kernel

/-- Notices were lost while 64 reports stood unconsumed, no completion waiting. -/
def lossy (s : State) : State := { s with cp := { s.cp with reportProducer := 64, published := 64, lostSet := 8, lostTotal := 3 } }

/-- The overflow test at the bounds of the consumer values: 4 leaves 60 unconsumed, 5 leaves 59 and 6 leaves 58; 1 leaves 65
of 66, and no slot for the completion that waits. -/
theorem witness_ReportAndInterruptWordWrites_overflow :
    (∀ s ∈ [lossy idle, lossy waitingForSpace], s.controlOpen 0 1 ∧ s.cp.lostSet ≠ 0 ∧ s.cp.state ≠ .errorStop
        ∧ s.cp.consumerShadow = 0
        ∧ (s.cp.reportProducer - 4).toNat = 60 ∧ (s.cp.reportProducer - 5).toNat = 59
        ∧ (s.cp.reportProducer - 6).toNat = 58)
      ∧ (lossy idle).cp.state = .idle
      ∧ ((lossy waitingForSpace).cp.state = .waitSpace
        ∧ (lossy waitingForSpace).cp.inHand.bind InHand.completion = some (hand.report 1 .nop .ok 0 0))
      ∧ waitingForSpace.cp.lostSet = 0
      ∧ ({ lossy idle with cp := { (lossy idle).cp with state := .errorStop } } : State).controlOpen 0 1
      ∧ ((66 : BitVec 16) - 1).toNat = 65 := by
  unfold State.controlOpen State.nothingWaits
  decide +kernel

/-- A changed consumer shadow leaves 60, 59 or 58 reports unconsumed. -/
theorem witness_ReportAndInterruptWordWrites_changed : ∀ c ∈ [((4 : BitVec 16), 60), (5, 59), (6, 58)],
    let s : State := { lossy idle with cp := { (lossy idle).cp with consumerShadow := c.1 } }
    (s.cp.reportProducer - s.cp.consumerShadow).toNat = c.2 ∧ s.cp.lostSet ≠ 0 := by decide +kernel

/-- A restart finds a payload write downstream, or a mirror write, or nothing of the list. -/
theorem witness_RestartRequestWrite_kept :
    ∀ s ∈ [cpWriting (.payload true) false, cpWriting .mirror true, orphaned, ready],
      s.controlOpen 0 1 := by
  unfold State.controlOpen State.nothingWaits
  decide +kernel

theorem witness_RestartRequestWrite : idle.controlOpen 0 1 ∧ idle.cp.lostSet = 0
    ∧ ({ idle with cp := { idle.cp with lostSet := 1 } } : State).cp.lostSet ≠ 0
    ∧ ({ idle with cp := { idle.cp with lostSet := 1 } } : State).controlOpen 0 1 := by
  unfold State.controlOpen State.nothingWaits
  decide +kernel

/-- Offset 0xBF0 is the last software-owned beat, 0x10 and 0xC00 are beats of the part; requester 1 lacks the attribute. -/
theorem witness_ControlBlockWrite :
    idle.controlOpen 0 0 ∧ (blockTest 0xBF0 1).wellFormed = true
      ∧ (∀ k ∈ List.range 16, softwareOwned ((0xBF0 : BitVec 13).toNat + k) = true)
      ∧ idle.controlOpenBut 1 0 ∧ idle.requesters[(1 : ReqNo)].control = false
      ∧ shut.controlOpenBut 0 0 ∧ shut.requesters[(0 : ReqNo)].enabled = false
      ∧ (blockTest 0x10 1).wellFormed = true ∧ softwareOwned 0x10 = false
      ∧ (blockTest 0xC00 1).wellFormed = true ∧ softwareOwned 0xC00 = false := by
  unfold State.controlOpen State.controlOpenBut State.nothingWaits
  decide +kernel

/-- A WRITE of the first beat by a requester, enabling the bytes given. -/
def firstBeat (q : ReqNo) (enabled : Nat → Bool) : Request :=
  offsetWrite idle.straps q 0 0 1 (List.replicate 16 7) ((List.range 16).map enabled)

/-- A watched word with a reserved byte beside it, from the control requester; a watched word alone, from one without the
attribute and from a disabled one; and what comes of them. -/
theorem witness_ControlBlockWrite_denied :
    (∀ c ∈ [(idle, firstBeat 0 fun k => decide (k ≤ 2)), (idle, firstBeat 1 fun k => decide (k ≤ 1)),
        (shut, firstBeat 0 fun k => decide (12 ≤ k))],
      c.1.controlOpenBut c.2.requester c.2.tag ∧ c.2.isControl c.1.straps = true ∧ c.2.kind = .write
        ∧ c.1.protocolOk c.2 = true
        ∧ (c.1.requesters[c.2.requester].enabled = false ∨ c.1.requesters[c.2.requester].control = false
          ∨ (c.2.enables.getD 2 false = true
            ∧ softwareOwned (c.2.address.toNat - (controlAddr c.1.straps 0).toNat + 2) = false))
        ∧ (ran (.admission [c.2]) c.1).cp = c.1.cp
        ∧ ((ran (.admission [c.2]) c.1).au.tracking.map TrackEntry.status) = [some .denied])
      ∧ (ran (.cmdProducer 1 0 1 3) idle).cp = idle.cp
      ∧ (ran (.restartRequest 1 0 1 15) idle).cp = idle.cp := by
  unfold State.controlOpenBut State.nothingWaits
  decide +kernel

theorem test_softwareOwned : ([0, 1, 4, 5, 8, 15, 0x400, 0xBFF].all softwareOwned) = true
    ∧ ([2, 3, 6, 7, 16, 0x3FF, 0xC00, 0x1FFF].all fun o => !softwareOwned o) = true := by decide +kernel

/-- The bytes of the four watched words, and the enables of them all, or of all but those of RESTART_REQUEST. -/
def fourWords (producer consumer irq restart : Byte) : List Byte :=
  [producer, 0, 0, 0, consumer, 0, 0, 0, irq, 0, 0, 0, restart, 0, 0, 0]
def fourEnables (restart : Bool) : List Bool :=
  [true, true, false, false, true, true, false, false, true, true, true, true] ++ List.replicate 4 restart

/-- One WRITE of all the watched words meets the hypotheses. From `ready`, with 2 reports posted: 0x79 and 1 are taken; 0x98
breaks the producer's bound, and 3 the consumer's; RESTART_REQUEST is 0 or 1, or is not touched. -/
theorem witness_ControlBlockWrite_words :
    ({ ready with cp := { ready.cp with reportProducer := 2 } } : State).controlOpen 0 1
      ∧ (fourWords 0x79 1 1 1).length = 16 * 1 ∧ (fourEnables true).length = 16 * 1
      ∧ (∀ k ∈ List.range 16, (fourEnables true).getD k false = true → softwareOwned k = true)
      ∧ ((0x79 : BitVec 16) - ready.cp.cmdConsumer).toNat = 2 ∧ ready.cp.producerShadow = 0x78
      ∧ ((0x98 : BitVec 16) - ready.cp.cmdConsumer).toNat = 33
      ∧ ready.cp.consumerShadow = 0 ∧ ready.cp.restartShadow = 0 := by
  unfold State.controlOpen State.nothingWaits
  decide +kernel

/-- The words are acted on in their order: the restart drops the two commands up to the CMD_PRODUCER value of its own WRITE, and
without it that value has its mark and the consumer value is taken. -/
theorem test_words_are_taken_in_order :
    let s := { ready with cp := { ready.cp with reportProducer := 2 } }
    let write := fun (restart : Bool) => Instr.admission [offsetWrite s.straps 0 1 0 1 (fourWords 0x79 1 1 1) (fourEnables restart)]
    let t := ran (write true) s
    let u := ran (write false) s
    (t.cp.cmdConsumer = 0x79 ∧ t.cp.reportProducer = 2 ∧ t.cp.marks = [] ∧ t.cp.irqEnable = 1)
      ∧ (u.cp.cmdConsumer = 0x77 ∧ u.cp.marks.map Mark.value = [0x78, 0x79] ∧ u.cp.consumerShadow = 1) := by
  decide +kernel

/-! ### Groups and lines -/

theorem witness_StrayDoneIsCounted : idle.groups[(5 : GroupNo)].state ≠ .entering
    ∧ (settled.groups[(5 : GroupNo)].state = .waking ∧ settled.groups[(5 : GroupNo)].wakeSub ≠ some .exiting) := by
  decide +kernel

/-- With wake work; with none; with a deeper depth due. -/
theorem witness_EntryEndsAsleep :
    ((entering .nap).groups[(5 : GroupNo)].state = .entering ∧ (entering .nap).groups[(5 : GroupNo)].target = some .nap
        ∧ (holding (entry 1 5 .waiting .wake) (entering .nap)).hasWakeEntry 5 = true)
      ∧ ((entering .nap).groups[(5 : GroupNo)].wakePending = false ∧ (entering .nap).hasWakeEntry 5 = false
        ∧ (entering .nap).idleTarget 5 = none)
      ∧ (inGroup 5 (fun r => { r with deepest := .off, tOff := 1, idle := 1 }) (entering .nap)).idleTarget 5 = some .off := by
  decide +kernel

/-- The arrival takes a line OFF, ON or SETTLING before, or leaves it; and a line that a deeper descent brings back on. -/
theorem witness_EntryEndsAsleep_lines :
    let line := fun (st : LineState) (th : Threshold) => withLine { deps := 0x20, threshold := th, state := st, timer := some 9 }
    (∀ st ∈ [LineState.on, .settling],
      ((line st .off (entering .off)).told 5 (some .off)).slu.lines[(2 : LineNo)].state = .off
        ∧ ((line st .off (entering .retain)).told 5 (some .retain)).slu.lines[(2 : LineNo)].state = st)
      ∧ (ran (.done 5 .ok) (line .settling .off (entering .off))).slu
        = ((line .settling .off (entering .off)).told 5 (some .off)).slu
      ∧ ((line .on .retain (inGroup 5 (fun r => { r with deepest := .off, tOff := 1, idle := 1 }) (entering .retain))).told 5
        (some .retain)).slu.lines[(2 : LineNo)].state = .off
      ∧ (ran (.done 5 .ok) (line .on .retain
        (inGroup 5 (fun r => { r with deepest := .off, tOff := 1, idle := 1 }) (entering .retain)))).slu.lines[(2 : LineNo)]
        = { deps := 0x20, threshold := .retain, state := .settling, timer := some 64 } := by decide +kernel

/-- A wake finds the lines of its group OFF, SETTLING and ON. -/
theorem witness_wakeBegun_lines :
    (ran (.wakeGroups 1 0x20) (withLine { deps := 0x20, state := .off, settle := 7 } (asleep .off ready))).slu.lines[(2 : LineNo)]
        = { deps := 0x20, state := .settling, settle := 7, timer := some 7 }
      ∧ (∀ st ∈ [LineState.settling, .on],
        (ran (.wakeGroups 1 0x20) (withLine { deps := 0x60, state := st, timer := some 5 } (asleep .off ready))).slu.lines[(2 : LineNo)]
          = { deps := 0x60, state := st, timer := some 5 }) := by decide +kernel

def reEntering (d : Depth) (pending : Bool) : State :=
  inGroup 5 (fun r => { r with depth := d, wakePending := pending }) (entering .off)

theorem witness_RefusedEntryReturns : ∀ s ∈ [reEntering .d0 false, reEntering .nap false, reEntering .retain true],
    s.groups[(5 : GroupNo)].state = .entering ∧ s.groups[(5 : GroupNo)].target = some .off
      ∧ s.hold.entries = [] ∧ s.hasWakeEntry 5 = false := by decide +kernel

/-- A line that the arrival takes OFF, and that the wake, where there is one, settles. -/
theorem witness_RefusedEntryReturns_lines : ∀ pending ∈ [false, true],
    let s := withLine { deps := 0x20, threshold := .retain } (reEntering .retain pending)
    (s.told 5 (some .retain)).slu.lines[(2 : LineNo)].state = .off
      ∧ (ran (.done 5 .refused) s).slu.lines[(2 : LineNo)].state = if pending then .settling else .off := by decide +kernel

theorem witness_FailedEntryFaultsTheGroup :
    (entering .nap).groups[(5 : GroupNo)].state = .entering ∧ (entering .nap).groups[(5 : GroupNo)].timer = some 0
      ∧ (entering .nap).hold.entries = []
      ∧ ∀ why ∈ [HoldReason.wake, .order],
          (holding (entry 1 5 .waiting why) (entering .nap)).hold.entries = [entry 1 5 .waiting why] := by decide +kernel

/-- Several entries are answered, one of them behind an older one of a halted requester. -/
theorem witness_FailedEntryFaultsTheGroup_several :
    let s := halted (holding (entryOf 4 3 5 .waiting .wake) (holding (entry 2 5 .waiting .order)
      (holding (entry 1 5 .waiting .wake) (entering .nap))))
    s.groups[(5 : GroupNo)].state = .entering ∧ s.hold.entries.length ≤ 64 ∧ (s.hold.entries.map HoldEntry.ref).Nodup
      ∧ (ran (.done 5 .error) s).au.responses = [.tracked ⟨3, 1⟩, .tracked ⟨3, 2⟩, .tracked ⟨4, 3⟩] := by decide +kernel

/-- Warm; cold without, with LOSE_OK and with LOSE_FILL regions; a held transaction. -/
theorem witness_ExitEndsActive :
    (∀ s ∈ [exiting false false, exiting true false, withRegion .loseOk (exiting true false),
        withRegion .loseFill (exiting true false), holding (entry 1 5 .waiting .wake) (exiting true false)],
      s.groups[(5 : GroupNo)].state = .waking ∧ s.groups[(5 : GroupNo)].wakeSub = some .exiting
        ∧ s.scrub.queue = [] ∧ s.requesters[(3 : ReqNo)].halted = false ∧ s.dp.forward.length < 16)
      ∧ groupOfPage idle.straps (withRegion .loseFill idle).regions[(47 : RegionNo)].basePage = some 5 := by decide +kernel

/-- The scrub queue empty, and the first region to refill. -/
theorem witness_ExitEndsActive_scrub :
    let s := withRegion .loseFill (exiting true false)
    s.scrub.queue = [] ∧ s.fills 5 47 ∧ s.regions[(47 : RegionNo)].fill = some 3
      ∧ (∀ j : RegionNo, j < 47 → s.regions[j].valid = false)
      ∧ (ran (.done 5 .ok) s).scrub.cursorAddr = some 335577088 := by
  unfold State.fills
  decide +kernel

theorem witness_ExitEndsActive_three : ∀ n ∈ [13, 14],
    (threeHeld n).hold.entries = [entry 1 5 .waiting .wake, entryOf 4 2 5 .waiting .wake, entry 3 5 .waiting .order]
      ∧ (threeHeld n).dp.forward.length = n ∧ (threeHeld n).groups[(5 : GroupNo)].state = .waking
      ∧ (threeHeld n).groups[(5 : GroupNo)].wakeSub = some .exiting
      ∧ (∀ e ∈ (threeHeld n).hold.entries, (threeHeld n).requesters[e.requester].halted = false) := by decide +kernel

theorem witness_FailedExitIsRetriedOnce : ∀ b ∈ [false, true],
    (exiting true b).groups[(5 : GroupNo)].state = .waking ∧ (exiting true b).groups[(5 : GroupNo)].wakeSub = some .exiting
      ∧ (exiting true b).groups[(5 : GroupNo)].timer = some 0 ∧ (exiting true b).groups[(5 : GroupNo)].retryUsed = b := by
  decide +kernel

theorem witness_StartSettleEnds : ∀ s ∈ [settled, withLine { deps := 0x20, state := .settling } settled],
    s.groups[(5 : GroupNo)].state = .waking ∧ s.groups[(5 : GroupNo)].wakeSub = some .lines
      ∧ s.groups[(5 : GroupNo)].timer = some 0 := by decide +kernel

theorem witness_NothingDueNothingHappens :
    idle.groups[(5 : GroupNo)].timer ≠ some 0 ∧ idle.slu.lines[(2 : LineNo)].timer ≠ some 0
      ∧ idle.wlu[(1 : WakeNo)].mode ≠ .sampled ∧ idle.pending = [] := by decide +kernel

def due (t : Nat) : State :=
  inGroup 5 (fun r => { r with deepest := .off, tNap := 1, tRetain := 2, tOff := 3, idle := t }) idle

theorem witness_IdleTargetIsTheDeepestThatQualifies :
    (due 3).idleTarget 5 = some .off ∧ (withRegion .keep (due 3)).idleTarget 5 = some .retain
      ∧ (due 2).idleTarget 5 = some .retain ∧ (due 1).idleTarget 5 = some .nap ∧ (due 0).idleTarget 5 = none := by
  decide +kernel

/-- A group at each arm of the tick, its idle elapsed one short of the threshold. -/
theorem witness_TickAdvancesTime :
    (∀ s ∈ [due 0, asleep .d0 (due 0), inGroup 5 (fun r => { r with inFlight := 1 }) (due 0)],
      (s.setGroup 5 { s.groups[(5 : GroupNo)] with idle := 1 }).idleTarget 5 = some .nap)
      ∧ (asleep .d0 (due 0)).groups[(5 : GroupNo)].depth.num < Sleep.nap.toDepth.num
      ∧ settled.groups[(5 : GroupNo)].state = .waking ∧ (entering .nap).groups[(5 : GroupNo)].state = .entering := by
  decide +kernel

/-- A deeper descent from ASLEEP settles a line found OFF. -/
theorem witness_TickAdvancesTime_lines :
    (ran .tuTick (withLine { deps := 0x20, threshold := .retain, state := .off } (asleep .retain (due 2)))).slu.lines[(2 : LineNo)].state
      = .settling
      ∧ Depth.retain.num < Sleep.off.toDepth.num := by decide +kernel

theorem witness_SettleEndsOn :
    (withLine { state := .settling, timer := some 0 } idle).slu.lines[(2 : LineNo)].state = .settling
      ∧ (withLine { state := .settling, timer := some 0 } idle).slu.lines[(2 : LineNo)].timer = some 0 := by
  decide +kernel

theorem witness_ClaimsActByTheGroupsState : (5 : GroupNo) ≠ idle.controlGroup ∧ idle.groups[(5 : GroupNo)].state = .active
    ∧ (∀ f ∈ [true, false], (draining f).groups[(5 : GroupNo)].state = .draining ∧ (draining f).groups[(5 : GroupNo)].forced = f)
    ∧ (entering .nap).groups[(5 : GroupNo)].state = .entering
    ∧ ((asleep .off idle).groups[(5 : GroupNo)].state = .asleep ∧ (asleep .off idle).outputs = [])
    ∧ (faulty idle).groups[(5 : GroupNo)].state = .faulted := by decide +kernel

/-- A forced drain may hold WAKE entries; an unforced one holds none. -/
theorem witness_drainsAreEmpty :
    ∀ s ∈ [asleep .off ready, fetching (draining false), fetching (holding (entry 1 5 .waiting .wake) (draining true))],
      s.drainsAreEmpty ∧ s.awaits 4 hand := by
  unfold State.drainsAreEmpty State.awaits
  decide +kernel

/-- An admitted transaction whose class pre-wakes groups 5 and 6. -/
theorem witness_ClaimsActByTheGroupsState_admission :
    (withClass { prewake := 0 } (asleep .nap idle)).memoryAdmitted (request .write 5) 5 0
      ∧ (withClass { prewake := 0x60 } (asleep .nap idle)).ac.programme.classes[(0 : ClassNo)].prewake ≠ 0 := by
  unfold State.memoryAdmitted State.nothingWaits
  decide +kernel

def sampled (armed : Bool) (l : Level) (high low : Nat) : State :=
  withWake { mode := .sampled, count := 2, armed := armed, lastLevel := l, highRun := high, lowRun := low, sampleDue := true }
    idle

theorem witness_WakeInputsAreRecognised :
    Level.high ≠ (withWake { mode := .rise, lastLevel := .low } idle).wlu[(1 : WakeNo)].lastLevel
      ∧ (∀ a ∈ [true, false], ∀ l ∈ [Level.low, .high], ∀ n ∈ [0, 1],
          let w := (sampled a l n n).wlu[(1 : WakeNo)]
          w.mode = .sampled ∧ w.sampleDue = true ∧ w.armed = a ∧ w.lastLevel = l ∧ (w.highRun + 1 < w.count ↔ n = 0)) := by
  decide +kernel

theorem witness_EvaluationFollowsTheOffCondition :
    (withLine { deps := 0x20 } (asleep .off idle)).offCondition { deps := 0x20 } = true
      ∧ (withLine { deps := 0x20, state := .off } idle).offCondition { deps := 0x20, state := .off } = false := by
  decide +kernel

/-! ### Ring commands -/

/-- The output in each state of the line. -/
theorem test_sup : ([(.on, .low), (.settling, .low), (.off, .low), (.on, .high), (.off, .high)].map fun c =>
    (withLine { state := c.1, offLevel := c.2 } idle).sup 2) = [.high, .high, .low, .low, .high] := by decide +kernel

theorem witness_awaits : ∀ s ∈ [ready, trapped, faulty ready, asleep .off ready, withRegion .keep ready], s.awaits 4 hand := by
  unfold State.awaits
  decide +kernel

/-- Reports up to the last slot for notices, the one before it, and beyond; a notice lost before or not. -/
def reported (n : BitVec 16) (lost : BitVec 32) : State :=
  { idle with cp := { idle.cp with reportProducer := n, lostSet := lost, lostTotal := if lost = 0 then 0 else 1 } }

theorem witness_RingCommandsEndWithTheirReport :
    ((∀ n ∈ [58, 59, 60], ((reported (BitVec.ofNat 16 n) 0).cp.reportProducer
          - (reported (BitVec.ofNat 16 n) 0).cp.consumerShadow).toNat = n)
        ∧ (reported 59 0).cp.lostSet = 0 ∧ (reported 59 2).cp.lostSet ≠ 0 ∧ (reported 60 0).cp.state ≠ .errorStop)
      ∧ (raiseNotice (.queueHigh 1 2) (reported 58 2)).cp.writeList.length = 4
      ∧ (raiseNotice (.queueHigh 1 2) (reported 59 2)).cp.lostSet = 0x80
      ∧ (raiseNotice (.queueHigh 1 2) (reported 59 0)).cp.writeList.length = 2
      ∧ (raiseNotice (.queueHigh 1 2) (reported 60 0)).cp.lostSet = 0x80 := by decide +kernel

/-- The write list is given. -/
def listed (ws : List CpWrite) (s : State) : State := { s with cp := { s.cp with writeList := ws } }

/-- No mirror write in the list; one that waits, alone or behind another write; one set in the place, and one downstream; and
ERROR_STOP. -/
theorem witness_RingCommandsEndWithTheirReport_mirrored :
    let m : CpWrite := { kind := .mirror, tx := none }
    let r : CpWrite := { kind := .record, tx := none }
    let s := listed [m] idle
    let placed : State := { s with dp := { s.dp with writePlace := some (beat .write 0) } }
    let stopped : State := { idle with cp := { idle.cp with state := .errorStop } }
    (mirrorChange idle).cp = (s : State).cp
      ∧ mirrorChange s = s ∧ mirrorChange (listed [r, m] idle) = listed [r, m] idle
      ∧ mirrorChange placed = { placed with cp := { placed.cp with reMirror := true } }
      ∧ (mirrorChange (cpWriting .mirror false)).cp.reMirror = true
      ∧ mirrorChange stopped = { stopped with cp := { stopped.cp with reMirror := true } } := by decide +kernel

/-- A change of a group's state, of its depth, of a line's state, of its level, and of the CP state; and events that change a
group, a line, the backpressure flag and the CP state. -/
theorem witness_RingCommandsEndWithTheirReport_owed :
    let g := idle.groups[(5 : GroupNo)]
    let l := idle.slu.lines[(2 : LineNo)]
    let full := holding (entry 2 6 .waiting .order) trapped
    ({ g with depth := .nap } : GroupRec).depth ≠ g.depth
      ∧ ({ g with state := .faulted } : GroupRec).state ≠ g.state
      ∧ ({ l with state := .settling } : SupplyLine).state ≠ l.state
      ∧ ({ l with offLevel := .high } : SupplyLine).output ≠ l.output ∧ CpState.posting ≠ idle.cp.state
      ∧ (ran (.done 5 .ok) (entering .off)).groups[(5 : GroupNo)].depth ≠ (entering .off).groups[(5 : GroupNo)].depth
      ∧ (ran (.setLine 1 2 3 1 0 1) ready).slu.lines[(2 : LineNo)].output ≠ ready.slu.lines[(2 : LineNo)].output
      ∧ (ran (.setQueueLimits 1 2 1) full).hold.backpressure ≠ full.hold.backpressure
      ∧ (ran (.nop 1) ready).cp.state ≠ ready.cp.state := by decide +kernel

/-- Notices written and lost; and completions with one report slot free and with none. -/
theorem witness_RingCommandsEndWithTheirReport_reports :
    (∀ (s : State) (n : Notice), s.reports [n] (raiseNotice n s) ∧ s.reports [] (mirrorChange s))
      ∧ ((reported 63 0).cp.reportProducer - (reported 63 0).cp.consumerShadow).toNat = 63
      ∧ ((reported 64 0).cp.reportProducer - (reported 64 0).cp.consumerShadow).toNat = 64
      ∧ (postCompletion (hand.report 1 .nop .ok 0 0) (reported 63 0)).cp.state = .posting
      ∧ (postCompletion (hand.report 1 .nop .ok 0 0) (reported 64 0)).cp.state = .waitSpace :=
  ⟨fun s n => ⟨.notice n s.freeDraws (.done _), .change (.done _)⟩, by decide +kernel⟩

/-- A slot of 64 bytes: its tag, its kind, and zeros. -/
def slot (kind : Byte) : List Byte := [0x34, 0x12, kind, 0] ++ List.replicate 60 0

theorem witness_FetchedSlotsAreTakenOnce :
    idle.dp.find .cpFetch = none
      ∧ ({ ready with cp := { ready.cp with fetchStale := true } } : State).dp.find .cpFetch = some 4
      ∧ ringBody (.nop 0x1234) = some (decodeSlot (slot 1)) ∧ ringBody (.snapshot 0x1234 0) = some (decodeSlot (slot 0x12))
      ∧ (decodeSlot (slot 0)).2 = .unknown 0 ∧ (decodeSlot (slot 0x13)).2 = .unknown 0x13
      ∧ (slot 0).length = 64 ∧ ready.dp.slots[(4 : SlotNo)] = some ⟨.cpFetch, .read, 4⟩
      ∧ (let s : State := { ready with cp := { ready.cp with state := .errorStop } }
         s.dp.find .cpFetch = some 4 ∧ s.cp.fetchStale = false ∧ s.cp.state ≠ .fetching)
      ∧ slotImage 0x1234 (.snapshot 0) = slot 0x12 := by decide +kernel

/-- A region of one page, and the same group's last page, in range; beside one that it does not meet. -/
theorem witness_RegionCommandsWriteDescriptors :
    policy? 2 = some .loseFill ∧ flag? 1 = some true ∧ groupOfPage ready.straps 81920 = some 5
      ∧ groupOfPage ready.straps (81920 + 8 - 1) = some 5 ∧ groupOfPage ready.straps (98303 + 1 - 1) = some 5
      ∧ (∀ j : RegionNo, j ≠ 0 → (withRegion .keep ready).regions[j].valid = true →
          81920 + 8 ≤ (withRegion .keep ready).regions[j].basePage)
      ∧ controlPage ready.straps + 2 ≤ 81920 ∧ ready.groups[(5 : GroupNo)].state = .active
      ∧ ready.groups[(5 : GroupNo)].deepest ≠ .off
      ∧ (withRegion .keep ready).regions[(47 : RegionNo)].valid = true := by decide +kernel

theorem witness_PoliciesLimitsAndTimeoutsAreStored :
    (16777215#32).toNat ≤ 16777215 ∧ (15 : GroupNo) ≠ ready.controlGroup
      ∧ (∀ i : RegionNo, ready.regions[i].valid = false)
      ∧ (2 ≤ (64 : Byte).toNat ∧ (64 : Byte).toNat ≤ 64 ∧ 1 ≤ (63 : Byte).toNat ∧ (63 : Byte).toNat < (64 : Byte).toNat)
      ∧ (decide ((2 : Byte).toNat ≤ (holding (entry 2 6 .waiting .order) trapped).hold.entries.length)
        ≠ (holding (entry 2 6 .waiting .order) trapped).hold.backpressure) := by
  decide +kernel

theorem witness_ForceDepthStartsAForcedDrain :
    (5 : GroupNo) ≠ ready.controlGroup ∧ ready.groups[(5 : GroupNo)].state = .active ∧ ready.groups[(5 : GroupNo)].held = 0
      ∧ ready.groups[(5 : GroupNo)].inFlight = 0 ∧ (fetching (inFlight .write 5 false)).groups[(5 : GroupNo)].inFlight ≠ 0
      ∧ (∀ i : RegionNo, ready.regions[i].valid = false) := by decide +kernel

theorem witness_WakeGroupsWakesTheSleeping : ∀ s ∈ [asleep .off ready, fetching (holding (entry 1 5 .waiting .wake) (draining true))],
    s.awaits 4 hand ∧ s.drainsAreEmpty := fun s h => by
  have w := witness_drainsAreEmpty s
  simp only [List.mem_cons, List.not_mem_nil, or_false] at h w
  rcases h with rfl | rfl
  · exact (w (Or.inl rfl)).symm
  · exact (w (Or.inr (Or.inr rfl))).symm

theorem witness_RecoverStartsAColdWake : (faulty ready).groups[(5 : GroupNo)].state = .faulted := by decide +kernel

theorem witness_LineCommandsRewriteTheLines :
    threshold? 3 = some .off ∧ 1 ≤ (4095#16).toNat ∧ (4095#16).toNat ≤ 4095 ∧ ready.slu.lines[(7 : LineNo)].state ≠ .settling
      ∧ wakeMode? 4 = some .sampled ∧ 1 ≤ (15 : Byte).toNat ∧ (15 : Byte).toNat ≤ 15 := by decide +kernel

theorem witness_ProgrammeIsWritten :
    kindTest? 2 = some .any ∧ (4194303#32).toNat ≤ 4194303
      ∧ term? ⟨1, 23, 1, 0, 1⟩ = some { enabled := true, a := 23, b := some 0, bNegated := true }
      ∧ term? ⟨0, 0, 0, 255, 255⟩ = some { enabled := false, a := 0, b := none, bNegated := false } := by decide +kernel

/-- Two held entries of requester 3, the older one for a group asleep. -/
def twoHeld : State :=
  fetching (holding (entry 2 6 .waiting .order) (holding (entry 1 5 .waiting .wake) (asleep .nap idle)))

theorem witness_SetRequesterRewritesTheRecord :
    mode? 1 = some .relaxed ∧ (1 ≤ (32 : Byte).toNat ∧ (32 : Byte).toNat ≤ 32)
      ∧ (ready.requesters[(0 : ReqNo)].enabled = true ∧ ready.requesters[(0 : ReqNo)].control = true)
      ∧ twoHeld.awaits 4 hand ∧ twoHeld.requesters[(3 : ReqNo)].mode = .ordered
      ∧ twoHeld.hold.entries = [entry 1 5 .waiting .wake, entry 2 6 .waiting .order]
      ∧ twoHeld.groups[(5 : GroupNo)].state ≠ .active ∧ twoHeld.groups[(6 : GroupNo)].state = .active
      ∧ twoHeld.requesters[(3 : ReqNo)].halted = false ∧ twoHeld.dp.forward.length < 16 := by
  unfold State.awaits
  decide +kernel

theorem witness_ReleaseTrapDisposesOfTheEntry :
    trapped.requesters[(3 : ReqNo)].halted = true ∧ trapped.requesters[(3 : ReqNo)].trapped = some ⟨3, 1⟩
      ∧ trapped.hold.entries = [entry 1 5 .waiting .trap] ∧ trapped.groups[(5 : GroupNo)].state = .active
      ∧ trapped.dp.forward.length < 16
      ∧ (let s := withClass { trap := true } (holding (entry 2 6 .waiting .halt) trapped)
         s.hold.entries = [entry 1 5 .waiting .trap, entry 2 6 .waiting .halt]
          ∧ s.ac.programme.classes[(0 : ClassNo)].trap = true) := by decide +kernel

/-- Class 1 has TRAP, class 2 has no WAKE. -/
def classes (s : State) : State :=
  let p := s.ac.programme
  let c := (p.classes.set (1 : ClassNo) { trap := true }).set (2 : ClassNo) { wake := false }
  { s with ac := { s.ac with programme := { p with classes := c } } }

/-- A state in which requester 3 is halted on the entry, the entries of the hold queue being given. -/
def haltedOn (e : HoldEntry) (es : List HoldEntry) (s : State) : State :=
  let t := fetching (classes (es.foldl (fun s x => holding x s) s))
  let r := { t.requesters[(3 : ReqNo)] with halted := true, trapped := some e.ref }
  { t with requesters := t.requesters.set (3 : ReqNo) r }

/-- The trapped entry alone, for a group FAULTED, ASLEEP or in an unforced drain, with WAKE and without; then behind an older
entry. -/
theorem witness_ReleaseTrapDisposesOfTheEntry_forward :
    let e := entry 1 5 .waiting .trap
    let x := entry 2 6 .waiting .order
    (∀ s ∈ [haltedOn e [e] (faulty idle), haltedOn e [e] (asleep .nap idle), haltedOn e [e] (draining false),
        haltedOn e [x, e] (asleep .nap idle)], s.awaits 4 hand ∧ s.controlAwake
          ∧ s.requesters[(3 : ReqNo)].halted = true ∧ s.requesters[(3 : ReqNo)].trapped = some e.ref
          ∧ s.requesters[(3 : ReqNo)].mode = .ordered
          ∧ s.ac.programme.classes[(0 : ClassNo)].wake = true ∧ s.ac.programme.classes[(2 : ClassNo)].wake = false)
      ∧ (haltedOn e [e] (faulty idle)).groups[(5 : GroupNo)].state = .faulted
      ∧ (haltedOn e [e] (asleep .nap idle)).groups[(5 : GroupNo)].state = .asleep
      ∧ ((haltedOn e [e] (draining false)).groups[(5 : GroupNo)].state = .draining
        ∧ (haltedOn e [e] (draining false)).groups[(5 : GroupNo)].forced = false)
      ∧ (lostPage.lookup (pageOf (beat .read 5).address) = some 47 ∧ lostPage.regions[(47 : RegionNo)].lost = true)
      ∧ (haltedOn e [x, e] (asleep .nap idle)).hold.entries = [x, e] ∧ x.ref ≠ e.ref ∧ x.requester = e.requester := by
  unfold State.awaits State.controlAwake
  decide +kernel

/-- HALT entries behind the trapped one: for an ACTIVE group; for one asleep, with a TRAP entry or none behind it. -/
theorem witness_ReleaseTrapDisposesOfTheEntry_walk :
    let e := entry 1 5 .waiting .trap
    let x := entry 2 5 .waiting .halt
    let y := entry 3 6 .waiting .halt
    let s := haltedOn e [e, x, y] (asleep .nap idle)
    let t := haltedOn e [e, x, { y with cls := 1 }] (asleep .nap idle)
    (∀ a ∈ [s, t], a.awaits 4 hand ∧ a.controlAwake ∧ a.requesters[(3 : ReqNo)].halted = true
        ∧ a.requesters[(3 : ReqNo)].trapped = some e.ref ∧ a.requesters[(3 : ReqNo)].mode = .ordered
        ∧ (a.hold.entries.map HoldEntry.ref).Nodup ∧ a.groups[(5 : GroupNo)].state = .asleep
        ∧ a.groups[(6 : GroupNo)].state = .active)
      ∧ s.hold.entries = [e, x, y] ∧ t.hold.entries = [e, x, { y with cls := 1 }]
      ∧ s.ac.programme.classes[(0 : ClassNo)].trap = false ∧ t.ac.programme.classes[(1 : ClassNo)].trap = true
      ∧ (haltedOn e [e, y] idle).hold.entries = [e, y] := by
  unfold State.awaits State.controlAwake
  decide +kernel

/-- The entry that the walk sets waiting for its wake, and the one behind it. -/
theorem test_release_walks_the_halt_entries :
    let e := entry 1 5 .waiting .trap
    let x := entry 2 5 .waiting .halt
    let y := entry 3 6 .waiting .halt
    (ran (.releaseTrap 1 3 1) (haltedOn e [e, x, y] (asleep .nap idle))).hold.entries
        = [{ x with reason := .wake }, { y with reason := .order }]
      ∧ (ran (.releaseTrap 1 3 1) (haltedOn e [e, x, { y with cls := 1 }] (asleep .nap idle))).hold.entries
        = [{ x with reason := .wake }, { y with cls := 1, reason := .trap }] := by decide +kernel

/-- The last payload write of a SNAPSHOT is downstream. -/
def lastPayload : State :=
  let s := cpWriting (.payload true) false
  { s with
    cp := { s.cp with
      state := .executing, inHand := some { hand with fetched := some (1, .snapshot 0), copyTime := some 12 } } }

theorem witness_SnapshotCopiesAndClears :
    lastPayload.dp.slots[(0 : SlotNo)] = some ⟨.cpWrite, .write, 16⟩ ∧ lastPayload.cp.orphan = false
      ∧ lastPayload.cp.writeList = [{ kind := .payload true, tx := none }] ∧ lastPayload.cp.state = .executing
      ∧ lastPayload.cp.inHand = some { hand with fetched := some (1, .snapshot 0), copyTime := some 12 } := by
  decide +kernel

theorem witness_RefusalsNameTheirReason :
    (47 : Byte).toNat < 48 ∧ 48 ≤ (48 : Byte).toNat
      ∧ installedPages ready.straps ≤ (262144#32).toNat ∧ (262143#32).toNat < installedPages ready.straps
      ∧ ready.regions[(47 : RegionNo)].valid = false
      ∧ (inGroup 5 (fun r => { r with state := .scrubbing }) (withRegion .keep ready)).groups[(5 : GroupNo)].state = .scrubbing
      ∧ groupOfPage ready.straps (withRegion .keep ready).regions[(47 : RegionNo)].basePage = some 5
      ∧ (withRegion .keep ready).firstRegion 5 .keep = some 47
      ∧ 0 < (holding (entry 1 5 .waiting .wake) ready).groups[(5 : GroupNo)].held
      ∧ ready.groups[(5 : GroupNo)].state ≠ .faulted
      ∧ (withLine { state := .settling } ready).slu.lines[(2 : LineNo)].state = .settling
      ∧ ready.requesters[(3 : ReqNo)].halted = false
      ∧ (∀ p : ReqNo, p ≠ 0 → ready.requesters[p].enabled = false ∨ ready.requesters[p].control = false)
      ∧ (1 : Byte).toNat < 2 ∧ 64 < (65 : Byte).toNat ∧ (2 : Byte) ≠ 0 ∧ (2 : Byte) ≠ 1 := by decide +kernel

/-- Each argument check at the first value beyond its range, the arguments before it being legal. -/
theorem witness_argumentsRefused :
    let eight := Vector.replicate 8 (0 : Byte)
    let term : TermArg := ⟨1, 23, 1, 23, 1⟩
    ∀ c ∈ ([(.setRegion 1 48 3 2 2 262144 0 0 0, 1), (.setRegion 1 47 3 2 2 262144 0 0 0, 2),
        (.setRegion 1 47 3 2 2 262143 0 0 0, 3), (.setRegion 1 47 3 2 2 81920 262145 0 0, 3),
        (.setRegion 1 47 3 2 2 98303 2 0 0, 3), (.setRegion 1 47 3 2 2 98303 1 0 0, 4), (.setRegion 1 47 2 1 2 98303 1 0 0, 7),
        (.clearRegion 1 48, 1), (.clearLost 1 48, 1), (.clearLost 1 47, 1),
        (.setGroupPolicy 1 16 4 0 0 0, 1), (.setGroupPolicy 1 15 4 16777216 0 0, 2),
        (.setGroupPolicy 1 15 3 16777216 16777216 0, 3), (.setGroupPolicy 1 15 3 2 16777216 0, 4),
        (.setGroupPolicy 1 15 3 2 0 16777216, 5), (.setGroupPolicy 1 15 3 2 1 0, 5), (.setGroupPolicy 1 15 3 2 0 1, 5),
        (.forceDepth 1 16 0, 1), (.forceDepth 1 0 0, 2), (.forceDepth 1 0 4, 2), (.recoverGroup 1 16, 1),
        (.setLine 1 8 4 2 0 0, 1), (.setLine 1 7 4 2 0 0, 3), (.setLine 1 7 3 2 0 0, 4), (.setLine 1 7 3 1 0 4096, 5),
        (.forceLine 1 8 2, 1), (.forceLine 1 7 2, 2), (.setWakeLine 1 4 5 0 0, 1), (.setWakeLine 1 3 5 0 0, 2),
        (.setWakeLine 1 3 4 16 0, 3), (.setElement 1 24 2 3 2 0 0 2 eight eight 0, 1),
        (.setElement 1 23 2 3 2 0 0 2 eight eight 0, 2), (.setElement 1 23 1 3 2 0 0 2 eight eight 0, 4),
        (.setElement 1 23 1 2 0 0 4194304 2 eight eight 0, 5), (.setElement 1 23 1 2 1 0 4194304 2 eight eight 0, 6),
        (.setClass 1 8 2 0 0 0 term term term term, 1), (.setClass 1 7 1 1 2 0 term term term term, 2),
        (.setClass 1 7 1 1 1 0 ⟨1, 24, 0, 0, 0⟩ term term term, 4), (.setClass 1 7 1 1 1 0 term term term ⟨0, 0, 1, 24, 0⟩, 7),
        (.setRequester 1 16 2 2 0 2, 1), (.setRequester 1 15 2 2 0 2, 2), (.setRequester 1 15 1 2 0 2, 3),
        (.setRequester 1 15 1 1 33 2, 4), (.setRequester 1 15 1 1 32 2, 5), (.releaseTrap 1 16 2, 1), (.releaseTrap 1 15 2, 2),
        (.setQueueLimits 1 1 0, 1), (.setQueueLimits 1 65 0, 1), (.setQueueLimits 1 64 64, 2), (.setQueueLimits 1 64 0, 2),
        (.setTimeouts 1 1 1 1 0, 4), (.snapshot 1 2, 1)] : List (Instr × BitVec 32)),
      ended c.1 ready = some (.badArgument, c.2) := by decide +kernel

/-- Each state check, the checks before it passed. -/
theorem witness_stateChecksRefuse :
    let region := fun (i : Byte) (b n : BitVec 32) => Instr.setRegion 1 i 0 1 1 b n 0 0
    let kept := inGroup 5 (fun r => { r with deepest := .off }) ready
    (∀ c ∈ [(region 0 81929 1, 47#32), (region 0 81920 9, 47), (region 47 1 1, 48), (region 0 0 1, 48)],
        ended c.1 (withRegion .keep ready) = some (.conflict, c.2))
      ∧ ended (region 47 2 1) (inGroup 5 (fun r => { r with state := .scrubbing }) (withRegion .keep ready))
        = some (.groupBusy, 0x505)
      ∧ ended (region 0 81920 8) (faulty (withRegion .keep ready)) = some (.groupBusy, 0x605)
      ∧ ended (region 0 81920 1) kept = some (.contentKept, 0)
      ∧ ended (.setGroupPolicy 1 0 1 0 0 0) ready = some (.groupPinned, 0)
      ∧ ended (.setGroupPolicy 1 5 3 0 0 0) (withRegion .keep ready) = some (.contentKept, 47)
      ∧ ended (.forceDepth 1 5 3) (holding (entry 1 5 .waiting .trap) ready) = some (.groupBusy, 5)
      ∧ ended (.forceDepth 1 5 3) (withRegion .keep ready) = some (.contentKept, 47)
      ∧ ended (.setLine 1 2 3 1 0 1) (withLine { state := .settling } ready) = some (.lineBusy, 2)
      ∧ ended (.setRequester 1 0 1 0 1 0) ready = some (.noControlLeft, 0)
      ∧ ended (.releaseTrap 1 15 0) ready = some (.notHalted, 15) := by decide +kernel

end Sys2Proof.Tests
end

