-- ==== Sys2Proof/Proofs/PowerAnswers.lean ====
section
/-! Answers on the group power channel: what DONE does for a group with no request outstanding (R11). -/

namespace Sys2Proof.Machine

theorem exec_done (g : GroupNo) (result : DoneResult) (s : State) :
    exec (.done g result) s = .next (finish (takeDone g result s.begin)) := rfl

/-- Whatever its result, a DONE is a stray unless an ENTER (state ENTERING) or an EXIT (WAKING, substate EXITING) is
outstanding for the group (R11). -/
theorem takeDone_eq_strayDone {g : GroupNo} {s : State} (result : DoneResult)
    (noEnter : s.groups[g].state ≠ .entering)
    (noExit : ¬ (s.groups[g].state = .waking ∧ s.groups[g].wakeSub = some .exiting)) :
    takeDone g result s = strayDone g s := by
  dsimp only [takeDone]
  split
  next hentering => exact absurd hentering noEnter
  next hwaking hexiting => exact absurd ⟨hwaking, hexiting⟩ noExit
  next => rfl

/-- At the beginning of an event, a stray changes the group's stray counter and empties the list of outputs. -/
theorem strayDone_begin (g : GroupNo) (s : State) :
    strayDone g s.begin = { s with
      groups := s.groups.set g
        { s.groups[g] with counters := { s.groups[g].counters with strays := s.groups[g].counters.strays + 1 } }
      outputs := [] } := rfl

/-- Settles O33: with neither request outstanding the arms of ENTER and EXIT are excluded, and the stray arm is left. -/
theorem strayDoneIsCounted : Obligations.StrayDoneIsCounted := by
  intro s g result noEnter noExit
  have stray : takeDone g result s.begin = strayDone g s.begin :=
    takeDone_eq_strayDone result (by simpa using noEnter) (by simpa using noExit)
  rw [exec_done, stray, strayDone_begin]

end Sys2Proof.Machine
end

