-- ==== Sys2Proof/Proofs/CreditSlots.lean ====
section
/-! The credit slots through an event: an operation that neither sends nor takes a completion leaves them as they are (R134,
R139). The shared operations keep them by their frames; the commands of chapter 10 and the command processor are told here. -/

namespace Sys2Proof.Machine

/-! ## Claims and group events -/

@[simp] theorem claim_slots (ws : List Work) (s : State) : (claim ws s).dp.slots = s.dp.slots := (claim_only ws s).slots

@[simp] theorem reachActive_slots (g : GroupNo) (s : State) : (reachActive g s).dp.slots = s.dp.slots :=
  (reachActive_only g s).slots

@[simp] theorem fault_slots (g : GroupNo) (why : FaultReason) (s : State) : (fault g why s).dp.slots = s.dp.slots :=
  (fault_only g why s).slots

@[simp] theorem lowerInFlight_slots (g : GroupNo) (s : State) : (lowerInFlight g s).dp.slots = s.dp.slots :=
  (lowerInFlight_only g s).toClaimOnly.slots

@[simp] theorem answerTrack_slots (r : TrackRef) (st : Status) (d : Option (List Byte)) (s : State) :
    (answerTrack r st d s).dp.slots = s.dp.slots := (answerTrack_only r st d s).slots

@[simp] theorem answerHeld_slots (e : HoldEntry) (st : Status) (s : State) :
    (answerHeld e st s).1.dp.slots = s.dp.slots := (answerHeld_only e st s).slots

@[simp] theorem redecide_slots (e : HoldEntry) (row1 : Bool) (s : State) :
    (redecide e row1 s).1.dp.slots = s.dp.slots := (redecide_only e row1 s).slots

/-! ## Scrub engine (R42 to R45) -/

@[simp] theorem scrubOffer_slots (g : GroupNo) (i : RegionNo) (a : Addr) (s : State) :
    (scrubOffer g i a s).dp.slots = s.dp.slots := rfl

@[simp] theorem scrubStart_slots (s : State) : (scrubStart s).dp.slots = s.dp.slots := by
  fun_cases scrubStart s <;> simp

@[simp] theorem scrubNext_slots (s : State) : (scrubNext s).dp.slots = s.dp.slots := scrubStart_slots _

@[simp] theorem scrubAdvance_slots (s : State) : (scrubAdvance s).dp.slots = s.dp.slots := by
  fun_cases scrubAdvance s <;> simp

@[simp] theorem scrubFail_slots (s : State) : (scrubFail s).dp.slots = s.dp.slots := by
  fun_cases scrubFail s <;> simp

/-! ## What the commands of chapter 10 do -/

theorem startDrain_slots (g : GroupNo) (d : Sleep) (forced : Bool) (cause : Option (BitVec 16)) (s : State) :
    (startDrain g d forced cause s).dp.slots = s.dp.slots := (startDrain_only g d forced cause s).toClaimOnly.slots

theorem wakeStart_slots (g : GroupNo) (cold : Bool) (s : State) : (wakeStart g cold s).dp.slots = s.dp.slots :=
  (wakeStart_only g cold s).toClaimOnly.slots

theorem putLine_slots (n : LineNo) (l : SupplyLine) (s : State) : (putLine n l s).dp.slots = s.dp.slots := by
  rw [(putLine_lineOnly n l s).dp]

theorem evaluateLine_slots (n : LineNo) (s : State) : (evaluateLine n s).dp.slots = s.dp.slots := by
  rw [(evaluateLine_only n s).dp]

theorem examineWaiting_slots (s : State) : (examineWaiting s).dp.slots = s.dp.slots := by
  rw [(examineWaiting_only s).dp]

theorem backpressureTest_slots (s : State) : (backpressureTest s).dp.slots = s.dp.slots :=
  (backpressureTest_only s).slots

theorem wakeEach_slots (gs : List GroupNo) (started : BitVec 32) (s : State) :
    (wakeEach gs started s).1.dp.slots = s.dp.slots := by
  induction gs generalizing started s with
  | nil => rfl
  | cons g gs ih => rw [wakeEach, ih, claim_slots]

theorem modeChange_slots (q : ReqNo) (old new : Mode) (s : State) :
    (modeChange q old new s).dp.slots = s.dp.slots := by
  fun_cases modeChange q old new s <;> simp

theorem takeTrap_slots (e : HoldEntry) (cause : Option (BitVec 16)) (s : State) :
    (takeTrap e cause s).dp.slots = s.dp.slots := by
  rw [takeTrap, (raiseNotice_claim _ _).slots, State.modReq_dp, (setReason_only _ _ _).slots]

theorem walkHalt_slots (seq : BitVec 16) (rs : List TrackRef) (s : State) :
    (walkHalt seq rs s).1.dp.slots = s.dp.slots := by
  fun_induction walkHalt seq rs s with
  | case1 s => rfl
  | case2 r rs s e found trapped => exact takeTrap_slots e (some seq) s
  | case3 r rs s e found notTrapped ih => rw [ih, claim_slots, redecide_slots]
  | case4 r rs s absent ih => exact ih

theorem disposeTrapped_slots (q : ReqNo) (deny : Bool) (s : State) :
    (disposeTrapped q deny s).dp.slots = s.dp.slots := by
  unfold disposeTrapped
  cases s.requesters[q].trapped.bind s.hold.find? with
  | none => rfl
  | some e => cases deny <;> simp

/-! ## The commands of chapter 10: a refusal leaves the state, and no claim reaches a slot -/

@[simp] theorem okay_state (s : State) : (okay s).state = s := rfl
@[simp] theorem refuse_state (r : Result) (detail : Nat) (s : State) : (refuse r detail s).state = s := rfl
@[simp] theorem badArgument_state (n : Nat) (s : State) : (badArgument n s).state = s := rfl
@[simp] theorem groupBusy_state (g : GroupNo) (s : State) : (groupBusy g s).state = s := rfl

section

variable (seq : BitVec 16) (s : State)

theorem writeRegion_slots (i : RegionNo) (g : GroupNo) (r : Region) :
    (writeRegion i g r s).state.dp.slots = s.dp.slots := by
  fun_cases writeRegion i g r s <;> simp

theorem cmdSetRegion_slots (i policy rd wr : Byte) (base count fill : BitVec 32) (mask : BitVec 16) :
    (cmdSetRegion i policy rd wr base count fill mask s).state.dp.slots = s.dp.slots := by
  fun_cases cmdSetRegion i policy rd wr base count fill mask s <;> simp [writeRegion_slots]

theorem cmdClearRegion_slots (i : Byte) : (cmdClearRegion i s).state.dp.slots = s.dp.slots := by
  fun_cases cmdClearRegion i s <;> simp +zetaDelta

theorem cmdClearLost_slots (i : Byte) : (cmdClearLost i s).state.dp.slots = s.dp.slots := by
  fun_cases cmdClearLost i s <;> simp

theorem cmdSetGroupPolicy_slots (g deepest : Byte) (tNap tRetain tOff : BitVec 32) :
    (cmdSetGroupPolicy g deepest tNap tRetain tOff s).state.dp.slots = s.dp.slots := by
  fun_cases cmdSetGroupPolicy g deepest tNap tRetain tOff s <;> simp

theorem cmdForceDepth_slots (g d : Byte) : (cmdForceDepth g d seq s).state.dp.slots = s.dp.slots := by
  fun_cases cmdForceDepth g d seq s <;> simp [startDrain_slots]

theorem cmdWakeGroups_slots (mask : BitVec 16) : (cmdWakeGroups mask s).state.dp.slots = s.dp.slots :=
  wakeEach_slots _ _ _

theorem cmdRecoverGroup_slots (g : Byte) : (cmdRecoverGroup g seq s).state.dp.slots = s.dp.slots := by
  fun_cases cmdRecoverGroup g seq s <;> simp [wakeStart_slots]

theorem cmdSetLine_slots (n threshold off : Byte) (deps settle : BitVec 16) :
    (cmdSetLine n threshold off deps settle s).state.dp.slots = s.dp.slots := by
  fun_cases cmdSetLine n threshold off deps settle s <;> simp [examineWaiting_slots, evaluateLine_slots, putLine_slots]

theorem cmdForceLine_slots (n action : Byte) : (cmdForceLine n action s).state.dp.slots = s.dp.slots := by
  fun_cases cmdForceLine n action s <;> simp +zetaDelta [evaluateLine_slots]

theorem cmdSetWakeLine_slots (n mode count : Byte) (groups : BitVec 16) :
    (cmdSetWakeLine n mode count groups s).state.dp.slots = s.dp.slots := by
  fun_cases cmdSetWakeLine n mode count groups s <;> simp

theorem cmdSetElement_slots (i enabled kind anyPage : Byte) (low high : BitVec 32) (hasData : Byte)
    (pattern mask : Vector Byte 8) (requesters : BitVec 16) :
    (cmdSetElement i enabled kind anyPage low high hasData pattern mask requesters s).state.dp.slots = s.dp.slots := by
  fun_cases cmdSetElement i enabled kind anyPage low high hasData pattern mask requesters s <;> simp

theorem cmdSetClass_slots (c activity wake trap : Byte) (prewake : BitVec 16) (t0 t1 t2 t3 : TermArg) :
    (cmdSetClass c activity wake trap prewake t0 t1 t2 t3 s).state.dp.slots = s.dp.slots := by
  fun_cases cmdSetClass c activity wake trap prewake t0 t1 t2 t3 s <;> simp

theorem cmdSetRequester_slots (q enabled mode quota control : Byte) :
    (cmdSetRequester q enabled mode quota control s).state.dp.slots = s.dp.slots := by
  fun_cases cmdSetRequester q enabled mode quota control s <;> simp +zetaDelta [modeChange_slots]

theorem cmdReleaseTrap_slots (q disposition : Byte) :
    (cmdReleaseTrap q disposition seq s).state.dp.slots = s.dp.slots := by
  fun_cases cmdReleaseTrap q disposition seq s <;> simp +zetaDelta [walkHalt_slots, disposeTrapped_slots]

theorem cmdSetQueueLimits_slots (high low : Byte) :
    (cmdSetQueueLimits high low s).state.dp.slots = s.dp.slots := by
  fun_cases cmdSetQueueLimits high low s <;> simp +zetaDelta [backpressureTest_slots]

theorem cmdSetTimeouts_slots (entry nap retain off : BitVec 16) :
    (cmdSetTimeouts entry nap retain off s).state.dp.slots = s.dp.slots := by
  fun_cases cmdSetTimeouts entry nap retain off s <;> simp

end

/-- Whatever the command, its checks and its claim leave the slots (R163, R165). -/
theorem verdict_slots {seq : BitVec 16} {body : CmdBody} {s : State} {v : Verdict} (h : verdict seq body s = some v) :
    v.state.dp.slots = s.dp.slots := by
  suffices keeps : ∀ w ∈ verdict seq body s, w.state.dp.slots = s.dp.slots from keeps v h
  cases body <;> simp only [verdict, Option.mem_def, Option.some.injEq, forall_eq']
  case nop => rfl
  case unknown => rfl
  case setRegion => exact cmdSetRegion_slots ..
  case clearRegion => exact cmdClearRegion_slots ..
  case clearLost => exact cmdClearLost_slots ..
  case setGroupPolicy => exact cmdSetGroupPolicy_slots ..
  case forceDepth => exact cmdForceDepth_slots ..
  case wakeGroups => exact cmdWakeGroups_slots ..
  case recoverGroup => exact cmdRecoverGroup_slots ..
  case setLine => exact cmdSetLine_slots ..
  case forceLine => exact cmdForceLine_slots ..
  case setWakeLine => exact cmdSetWakeLine_slots ..
  case setElement => exact cmdSetElement_slots ..
  case setClass => exact cmdSetClass_slots ..
  case setRequester => exact cmdSetRequester_slots ..
  case releaseTrap => exact cmdReleaseTrap_slots ..
  case setQueueLimits => exact cmdSetQueueLimits_slots ..
  case setTimeouts => exact cmdSetTimeouts_slots ..
  case snapshot clear => cases flag? clear <;> simp

/-! ## The command processor -/

theorem offerFetch_slots (s : State) : (offerFetch s).dp.slots = s.dp.slots := by
  fun_cases offerFetch s <;> simp

theorem endExecution_slots (v : Verdict) : (endExecution v).dp.slots = v.state.dp.slots := by
  rw [(endExecution_only v).dp]

/-- A SNAPSHOT clears counters and appends writes; neither is the downstream port's. -/
theorem startSnapshot_slots (seq : BitVec 16) (clear : Bool) (s : State) :
    (startSnapshot seq clear s).dp.slots = s.dp.slots := by
  cases clear <;> rfl

theorem runCommand_slots (seq : BitVec 16) (body : CmdBody) (s : State) :
    (runCommand seq body s).dp.slots = s.dp.slots := by
  fun_cases runCommand seq body s with
  | case1 v decided => rw [endExecution_slots, verdict_slots decided]
  | case2 => exact startSnapshot_slots ..

theorem fetchOk_slots (tag : BitVec 16) (body : CmdBody) (s : State) : (fetchOk tag body s).dp.slots = s.dp.slots := by
  fun_cases fetchOk tag body s with
  | case1 stale => exact offerFetch_slots _
  | case2 fresh h hand fetching => rw [runCommand_slots, (beginExecution_only h tag body s).dp]
  | case3 => rfl

/-- An entry to ERROR_STOP empties the CP's offer places and leaves the slots (R157). -/
theorem enterErrorStop_slots (s : State) : (enterErrorStop s).dp.slots = s.dp.slots := rfl

theorem writeDone_slots (k : WriteKind) (s : State) : (writeDone k s).dp.slots = s.dp.slots := by
  fun_cases writeDone k s
  case case8 t copied executing => exact endExecution_slots ⟨s, .ok, t⟩
  all_goals rfl

theorem cpWriteEnd_slots (result : MemResult) (s : State) : (cpWriteEnd result s).dp.slots = s.dp.slots := by
  fun_cases cpWriteEnd result s with
  | case1 orphan _ => rfl
  | case2 orphan _ => rfl
  | case3 kept empty => rfl
  | case4 kept w ws head => exact writeDone_slots ..
  | case5 kept w ws head => exact enterErrorStop_slots _

/-! ## A completion is handed on (R140, R141) -/

theorem countBytes_slots (e : TrackEntry) (s : State) : (countBytes e s).dp.slots = s.dp.slots := by
  fun_cases countBytes e s <;> rfl

theorem controlDone_slots (seq : BitVec 32) (s : State) : (controlDone seq s).dp.slots = s.dp.slots :=
  offerFetch_slots _

theorem forwardDone_slots (r : TrackRef) (group : Option GroupNo) (result : MemResult) (data : Option (List Byte))
    (s : State) : (forwardDone r group result data s).dp.slots = s.dp.slots := by
  unfold forwardDone
  extract_lets answered lowered
  have ha : answered.dp.slots = s.dp.slots := by
    unfold answered
    cases s.track? r <;> cases result <;> simp [countBytes_slots]
  have hl : lowered.dp.slots = s.dp.slots := by
    cases group with
    | none => exact ha
    | some g => exact (lowerInFlight_slots g answered).trans ha
  split
  next e _ =>
    split
    next => exact (controlDone_slots e.seq lowered).trans hl
    next => exact hl
  next => exact hl

/-- The source of a completed transaction frees no slot and takes none: that is the port's alone. -/
theorem handOn_slots (source : SlotSource) (result : MemResult) (data : Option (List Byte)) (s : State) :
    (handOn source result data s).dp.slots = s.dp.slots := by
  fun_cases handOn source result data s with
  | case1 r g => exact forwardDone_slots ..
  | case2 => exact cpWriteEnd_slots ..
  | case3 c => exact fetchOk_slots ..
  | case4 => exact enterErrorStop_slots _
  | case5 => exact scrubAdvance_slots s
  | case6 => exact scrubFail_slots s

end Sys2Proof.Machine
end

