-- ==== Sys2Proof/Proofs/Completions.lean ====
section
/-! Completions at the downstream port: which are discarded, and what a matched one does to its slot (R139). -/

namespace Sys2Proof.Machine

theorem exec_completion (k : SlotNo) (gen : BitVec 8) (result : MemResult) (data : Option (List Byte)) (s : State) :
    exec (.completion k gen result data) s = .next (finish (takeCompletion k gen result data s.begin)) := rfl

/-- An ERROR fits whatever it carries; an OK fits a WRITE with no read data and a READ with all of it. -/
theorem dataFits_iff (sl : Slot) (result : MemResult) (data : Option (List Byte)) :
    sl.dataFits result data = true ↔
      (result = .ok → sl.kind = .write → data = none)
        ∧ (result = .ok → sl.kind = .read → ∃ d : List Byte, data = some d ∧ d.length = 16 * sl.length) := by
  unfold Slot.dataFits
  cases result <;> cases sl.kind <;> cases data <;> simp

theorem takeCompletion_freeSlot {s : State} {k : SlotNo} (gen : BitVec 8) (result : MemResult)
    (data : Option (List Byte)) (unused : s.dp.slots[k] = none) : takeCompletion k gen result data s = s := by
  rw [takeCompletion, unused]

theorem takeCompletion_slot {s : State} {k : SlotNo} {sl : Slot} (gen : BitVec 8) (result : MemResult)
    (data : Option (List Byte)) (used : s.dp.slots[k] = some sl) :
    takeCompletion k gen result data s =
      if gen = s.dp.generation ∧ sl.dataFits result data then handOn sl.source result data (freeTheSlot k s) else s := by
  rw [takeCompletion, used]

theorem takeCompletion_otherGeneration {s : State} {gen : BitVec 8} (k : SlotNo) (result : MemResult)
    (data : Option (List Byte)) (other : gen ≠ s.dp.generation) : takeCompletion k gen result data s = s := by
  cases slot : s.dp.slots[k] with
  | none => exact takeCompletion_freeSlot gen result data slot
  | some sl => rw [takeCompletion_slot gen result data slot, if_neg (fun c => other c.1)]

theorem takeCompletion_misfit {s : State} {k : SlotNo} {sl : Slot} (gen : BitVec 8) {result : MemResult}
    {data : Option (List Byte)} (used : s.dp.slots[k] = some sl) (misfit : ¬ sl.dataFits result data) :
    takeCompletion k gen result data s = s := by
  rw [takeCompletion_slot gen result data used, if_neg (fun c => misfit c.2)]

/-- A completion that is not discarded frees its slot and no other, whatever its source then does. -/
theorem takeCompletion_matched_slots {s : State} {k : SlotNo} {sl : Slot} {result : MemResult}
    {data : Option (List Byte)} (used : s.dp.slots[k] = some sl) (fits : sl.dataFits result data) :
    (takeCompletion k s.dp.generation result data s).dp.slots = s.dp.slots.set k none := by
  rw [takeCompletion_slot s.dp.generation result data used, if_pos ⟨rfl, fits⟩, handOn_slots]
  rfl

/-- Settles O17: each reason to discard leaves the state of the event's beginning; a match goes through the hand-on, which
touches no slot. -/
theorem mismatchedCompletionIsDiscarded : Obligations.MismatchedCompletionIsDiscarded := by
  intro s k gen result data
  constructor
  · intro mismatch
    have discarded : takeCompletion k gen result data s.begin = s.begin := by
      rcases mismatch with unused | other | ⟨sl, used, rfl, write, present⟩ | ⟨sl, used, rfl, read, wrong⟩
      · exact takeCompletion_freeSlot gen result data unused
      · exact takeCompletion_otherGeneration k result data other
      · refine takeCompletion_misfit gen used fun fits => ?_
        obtain ⟨ofWrite, -⟩ := (dataFits_iff sl .ok data).mp fits
        exact present (ofWrite rfl write)
      · refine takeCompletion_misfit gen used fun fits => ?_
        obtain ⟨-, ofRead⟩ := (dataFits_iff sl .ok data).mp fits
        obtain ⟨d, present, long⟩ := ofRead rfl read
        exact wrong d present long
    rw [exec_completion, discarded]
    rfl
  · rintro sl used rfl ofWrite ofRead
    have fits : sl.dataFits result data = true := (dataFits_iff sl result data).mpr ⟨ofWrite, ofRead⟩
    exact ⟨_, exec_completion k s.dp.generation result data s, takeCompletion_matched_slots (s := s.begin) used fits⟩

end Sys2Proof.Machine
end

