-- ==== Sys2Proof/Proofs/InterruptLine.lean ====
section
/-! The interrupt line: its level as a function of its four inputs, and those inputs after a reset (R160). -/

namespace Sys2Proof.Machine

/-! ## The level of IRQ_N -/

theorem CmdProc.irqAsserted_iff (c : CmdProc) :
    c.irqAsserted = true ↔ c.state = .errorStop ∨ (c.irqEnable ≠ 0 ∧ c.published ≠ c.consumerShadow) := by
  simp [CmdProc.irqAsserted]

theorem irqN_low_iff (s : State) : s.irqN = .low ↔ s.cp.irqAsserted = true := by
  unfold State.irqN
  split <;> simp [*]

theorem irqN_high_iff (s : State) : s.irqN = .high ↔ ¬ s.cp.irqAsserted = true := by
  unfold State.irqN
  split <;> simp [*]

/-! ## The command processor through the end of an event

The end of an event reaches the command processor in two ways only: READY entries move, with their notices, behind a sent
head of the forward queue, and the posting of a completion ends when the write that publishes it is sent (R78, R156). -/

theorem setWrite_cp (s : State) : (setWrite s).cp = s.cp := by
  fun_cases setWrite s <;> rfl

theorem setWrite_forward (s : State) : (setWrite s).dp.forward = s.dp.forward := by
  fun_cases setWrite s <;> rfl

theorem sendInternal_cp (k : SlotNo) {s : State} (notPosting : s.cp.state ≠ .posting) :
    (sendInternal k s).cp = s.cp := by
  have idlePost : s.cp.postsNow = false := by simp [CmdProc.postsNow, notPosting]
  fun_cases sendInternal k s with
  | case1 tx place t posts => simp [idlePost] at posts
  | _ => rfl

theorem sendForward_empty (k : SlotNo) {s : State} (empty : s.dp.forward = []) : sendForward k s = s := by
  rw [sendForward, empty]

theorem arbitrate_cp {s : State} (empty : s.dp.forward = []) (notPosting : s.cp.state ≠ .posting) :
    (arbitrate s).cp = s.cp := by
  fun_cases arbitrate s with
  | case1 noSlot => rfl
  | case2 k free notReady => rfl
  | case3 k free ready offers =>
    split
    · rw [sendInternal_cp k (by rwa [setWrite_cp]), setWrite_cp]
    · exact sendInternal_cp k notPosting
  | case4 k free ready noOffer => rw [sendForward_empty k empty]

/-- With nothing to forward and no completion being posted, the end of an event leaves the command processor alone. -/
theorem finish_cp {s : State} (empty : s.dp.forward = []) (notPosting : s.cp.state ≠ .posting) :
    (finish s).cp = s.cp := by
  have setIf_cp (c : Bool) (t : State) : (if c then setWrite t else t).cp = t.cp := by
    cases c
    · rfl
    · exact setWrite_cp t
  have setIf_forward (c : Bool) (t : State) : (if c then setWrite t else t).dp.forward = t.dp.forward := by
    cases c
    · rfl
    · exact setWrite_forward t
  unfold finish
  rw [setIf_cp, arbitrate_cp (by rwa [setIf_forward]) (by rwa [setIf_cp]), setIf_cp]

/-! ## The resets -/

theorem exec_coldReset (pins : ResetPins) (s : State) :
    exec (.coldReset pins) s = .next (finish (resetState pins (Vector.replicate 16 {}) 0 s)) := rfl

theorem exec_warmReset (pins : ResetPins) (s : State) :
    exec (.warmReset pins) s = .next (finish (resetState pins (warmGroups pins.straps) (s.dp.generation + 1) s)) := rfl

/-- A reset leaves the forward queue empty and the command processor IDLE, so the write it sends at once does not reach the
command processor. -/
theorem finish_resetState_cp (pins : ResetPins) (groups : Vector GroupRec 16) (generation : BitVec 8) (s : State) :
    (finish (resetState pins groups generation s)).cp
      = resetCp (initialWrites pins.straps groups (Vector.replicate 8 {})) :=
  finish_cp (s := resetState pins groups generation s) rfl (by simp [resetState, resetCp])

/-- The CP is IDLE and the IRQ_ENABLE shadow 0, whatever the kind of reset: no cause to assert IRQ_N is left (R160). -/
theorem irqN_after_reset (pins : ResetPins) (groups : Vector GroupRec 16) (generation : BitVec 8) (s : State) :
    (finish (resetState pins groups generation s)).irqN = .high := by
  rw [irqN_high_iff, finish_resetState_cp, CmdProc.irqAsserted_iff]
  simp [resetCp]

/-- Settles O47: the level is read off its inputs in every state, and a reset of either kind leaves no cause to assert it. -/
theorem interruptFollowsItsInputs : Obligations.InterruptFollowsItsInputs := by
  refine ⟨fun s => ?_, fun pins s => ⟨?_, ?_⟩⟩
  · rw [irqN_low_iff, irqN_high_iff, CmdProc.irqAsserted_iff]
    exact ⟨Iff.rfl, Iff.rfl⟩
  · exact ⟨_, exec_coldReset pins s, irqN_after_reset ..⟩
  · exact ⟨_, exec_warmReset pins s, irqN_after_reset ..⟩

end Sys2Proof.Machine
end
